-- ==== Sys2Proof/Word.lean ====
section
/-! DEFINITION. The word types of the machine (00_scope.md R15). -/

namespace Sys2Proof

/-- One byte, the smallest addressable unit (R61). -/
abbrev Byte := BitVec 8

/-- A 64-bit value: a full general register, a control or debug register, a linear address. -/
abbrev Quad := BitVec 64

/-- A segment selector (R32). -/
abbrev Selector := BitVec 16

end Sys2Proof
end

