-- ==== Sys2Proof/Config.lean ====
section
/-! DEFINITION. What an implementation fixes: the parameters of 00_scope.md R6 to R14 and
92_eei_decisions.md ("Parameters left OPEN"), the records the oracles answer with, and the free values. The
parameters are a field of `State`, so that a statement about every state is about every implementation. The oracles,
which read the state, are declared in Machine/Oracle.lean. -/

namespace Sys2Proof

/-- The bits of a register that keep a fixed value whatever is written: the mask of those bits, and their values
(43_mov_dr.md R261, D25). -/
structure FixedBits where
  mask  : Quad
  value : Quad
  deriving DecidableEq, Repr

/-- Where the descriptor of a selector comes from (41_mov_sreg.md R187): the oracle of R12, or its 8-byte-entry
instance in memory. -/
inductive DescriptorSource where
  | oracle
  | table
  deriving DecidableEq, Repr

/-- The two treatments of armed breakpoints that 43_mov_dr.md R263 (D32) offers. -/
inductive Breakpoints where
  | refuse
  | inert
  deriving DecidableEq, Repr

/-- What an access does (20_memory.md R74). -/
inductive AccessType where
  | read
  | write
  | fetch
  deriving DecidableEq, Repr

/-- The kind of an access for `Translate`: what it does, and whether with user privilege (20_memory.md R74). -/
structure AccessKind where
  type : AccessType
  user : Bool
  deriving DecidableEq, Repr

/-- The answer of `Translate` (00_scope.md R13). The spec gives the page fault's code no format and no width (60_exceptions.md R273,
N23): 32 bits are DESIGN CHOICE (entry 9). -/
inductive Translation where
  | phys (pa : Quad)
  | pageFault (code : BitVec 32)
  deriving DecidableEq, Repr, Inhabited

/-- One known answer of `Translate`: for the accesses of one kind to the linear addresses from `first` to `first + size - 1`; a physical
answer is that of `first`. -/
structure KnownTranslation where
  first  : Nat
  size   : Nat
  kind   : AccessKind
  answer : Translation
  deriving DecidableEq, Repr

/-- The implementation parameters, one field each (00_scope.md R6 to R11, R14; 92_eei_decisions.md). No instruction
changes them. -/
structure Params where
  /-- R6: the processor supports Intel 64. Where it does not, EFER.LME and EFER.LMA read as 0 (`State.longEnabled`, `State.longActive`):
  the mode is never 64-bit or compatibility mode, so no REX prefix, 64-bit register, R8 to R15 or CR8 can be named (entry 5). -/
  arch64 : Bool
  /-- R7: bits 31:16 of the destination of `MOV r32, Sreg` are undefined. -/
  sregUpperUndefined : Bool
  /-- R8: CR0.ET stays set after any load of CR0. -/
  cr0EtFixed : Bool
  /-- R9, R323: a change of CR0.PE, CR0.PG, CR4.PSE or CR4.PAE flushes every TLB entry. The spec assumes neither value. Only the
  oracle `Translate` reads it (U17). -/
  tlbFlushOnPagingModeBits : Bool
  /-- R10, R38. -/
  cr0Reserved : Quad
  /-- R10, R41. Bit 63 is reserved whatever this mask says (R40). -/
  cr3Reserved : Quad
  /-- R10, R43. -/
  cr4Reserved : Quad
  /-- R10, R45. -/
  cr8Reserved : Quad
  /-- R11: the part has CR4. -/
  hasCr4 : Bool
  /-- R11: CR4.PCIDE is a defined bit. -/
  hasPcid : Bool
  /-- R11: CR4.DE is a defined bit. -/
  hasDe : Bool
  /-- R14: the number of implemented linear-address bits. -/
  laBits : Nat
  /-- R261, D25: the fixed bits of DR6. -/
  dr6Fixed : FixedBits
  /-- R261, D25: the fixed bits of DR7. -/
  dr7Fixed : FixedBits
  /-- R222, U8: the invalid CR0 combinations beyond the two that the manual names, each a (mask, value) pair. -/
  cr0InvalidExtra : List (Quad × Quad)
  /-- U7: in 64-bit mode a 1 in bits 63:32 of the source of `MOV CR0, r64` faults instead of being ignored. -/
  cr0HighFaults : Bool
  /-- R187. -/
  descriptorSource : DescriptorSource
  /-- R263, D32. -/
  breakpoints : Breakpoints
  /-- R13, D10: the answers of `Translate` that a claim supplies as its premise; every other answer is the oracle's. -/
  translations : List KnownTranslation
  deriving DecidableEq, Repr

/-- The defaults: the values that 00_scope.md R6 to R14 recommend or that 95_test_vectors.md section 3.4 uses, with the fixed
bits of 10_state.md R48. Five are the model's own, for which the spec recommends none: `tlbFlushOnPagingModeBits` (R9, R323: "A model
must not assume either value"), `cr0InvalidExtra`, `cr0HighFaults`, `descriptorSource` and `breakpoints` are DESIGN CHOICE
(entry 5): unsafe. No answer of `Translate` is known. -/
def Params.default : Params where
  arch64 := true
  sregUpperUndefined := false
  cr0EtFixed := true
  tlbFlushOnPagingModeBits := true
  cr0Reserved := 0xFFFFFFFF1FFAFFC0
  cr3Reserved := 0xFFF0000000000000
  cr4Reserved := 0xFFFFFFFFFF888000
  cr8Reserved := 0xFFFFFFFFFFFFFFF0
  hasCr4 := true
  hasPcid := true
  hasDe := true
  laBits := 48
  dr6Fixed := { mask := 0xFFFF1FF0, value := 0xFFFF0FF0 }
  dr7Fixed := { mask := 0xD400, value := 0x400 }
  cr0InvalidExtra := []
  cr0HighFaults := false
  descriptorSource := .table
  breakpoints := .inert
  translations := []

/-- The kinds of segment of 41_mov_sreg.md R186. -/
inductive SegKind where
  | data (writable expandDown : Bool)
  | code (readable conforming : Bool)
  | system
  deriving DecidableEq, Repr, Inhabited

/-- A segment descriptor, as the record of 41_mov_sreg.md R186. -/
structure Descriptor where
  kind    : SegKind
  dpl     : BitVec 2
  present : Bool
  base    : Quad
  limit   : BitVec 32
  big     : Bool
  long    : Bool
  deriving DecidableEq, Repr, Inhabited

/-- What setting the accessed bit of a descriptor does (41_mov_sreg.md R188): physical bytes to write (none when the bit is
already set), or a page fault, or an unbacked address. -/
inductive AccessedUpdate where
  | store (cells : List (Nat × Byte))
  | pageFault (code : BitVec 32) (la : Quad)
  | unbacked
  deriving DecidableEq, Repr, Inhabited

/-- The answer of `FetchDescriptor` (41_mov_sreg.md R187); `unbacked` is the case of 20_memory.md R76, and a descriptor
comes with what setting its accessed bit does (R188). -/
inductive DescriptorResult where
  | outsideLimits
  | noncanonical
  | pageFault (code : BitVec 32) (la : Quad)
  | unbacked
  | desc (d : Descriptor) (accessed : AccessedUpdate)
  deriving DecidableEq, Repr, Inhabited

/-! ## Free values

Each is applied to the index of the draw, which `State.draws` counts, so that two executions need not draw alike (R29, R53,
D9; entry 7). None has a body. -/

/-- U1: the six status flags after MOV CR and MOV DR; bits 0 to 5 stand for CF, PF, AF, ZF, SF, OF. -/
opaque Config.freeFlags : Nat → BitVec 6

/-- U2: bits 31:16 of the destination of `MOV r32, Sreg` when they are undefined. -/
opaque Config.freeSregUpper : Nat → BitVec 16

/-- U14: bits 63:32 of a general register after a 32-bit write outside 64-bit mode. -/
opaque Config.freeGprUpper : Nat → BitVec 32

/-- U5, D26: the hidden part of a segment register after a NULL selector was loaded. -/
opaque Config.freeDescriptor : Nat → Descriptor

/-- U6: `ss_shadow` after the second or a later of consecutive loads of SS. -/
opaque Config.freeSsShadow : Nat → Bool

end Sys2Proof
end

