-- ==== Sys2Proof/Syntax.lean ====
section
/-! DEFINITION. The instructions: one constructor per row of spec/opcode_table.json (30_encoding.md R116, R117), with every field
of the encoding kept (R90 to R115), so that no bit of an instruction's bytes is lost. -/

namespace Sys2Proof

/-- The six segment registers (10_state.md R30). -/
inductive SegReg where
  | es | cs | ss | ds | fs | gs
  deriving DecidableEq, Repr

/-- An operand width of 8, 16, 32 or 64 bits (20_memory.md R61). -/
inductive Width where
  | b8 | b16 | b32 | b64
  deriving DecidableEq, Repr

/-- What the mode and CS.hidden.d.big make of instruction bytes: 64-bit mode, or a default size of 32 or of 16 bits
(30_encoding.md R100, R101). -/
inductive CodeSize where
  | c16 | c32 | c64
  deriving DecidableEq, Repr

/-- A REX prefix, a byte 0100WRXB (30_encoding.md R99). -/
structure Rex where
  w : Bool
  r : Bool
  x : Bool
  b : Bool
  deriving DecidableEq, Repr

/-- The prefixes of an instruction (30_encoding.md R93, R99): LOCK, a segment override, 66, 67, REX. -/
structure Prefixes where
  lock     : Bool
  seg      : Option SegReg
  opsize   : Bool
  addrsize : Bool
  rex      : Option Rex
  deriving DecidableEq, Repr

/-- No prefix. -/
def Prefixes.empty : Prefixes := ⟨false, .none, false, false, .none⟩

/-- A displacement after a 16-bit ModR/M byte, by its mod field 0, 1, 2 (30_encoding.md R109). -/
inductive Disp16 where
  | d0
  | d8 (d : BitVec 8)
  | d16 (d : BitVec 16)
  deriving DecidableEq, Repr

/-- A displacement after a 32- or 64-bit ModR/M byte, by its mod field 0, 1, 2 (30_encoding.md R110, R111). -/
inductive Disp32 where
  | d0
  | d8 (d : BitVec 8)
  | d32 (d : BitVec 32)
  deriving DecidableEq, Repr

/-- The memory forms of a ModR/M byte. -/
inductive MemForm where
  /-- 16-bit addressing, a row of the table of R109. -/
  | base16 (rm : BitVec 3) (disp : Disp16)
  /-- 16-bit addressing, mod = 0 and r/m = 6: a 16-bit displacement alone (R109). -/
  | abs16 (disp : BitVec 16)
  /-- r/m ≠ 4: a base register and a displacement (R110). -/
  | base (rm : BitVec 3) (disp : Disp32)
  /-- mod = 0 and r/m = 5: a displacement alone, RIP-relative in 64-bit mode (R110). -/
  | disp (disp : BitVec 32)
  /-- r/m = 4: a SIB byte with a base register (R111). -/
  | sib (scale : BitVec 2) (index base : BitVec 3) (disp : Disp32)
  /-- r/m = 4, mod = 0, SIB base = 5: no base register, a 32-bit displacement (R111). -/
  | sibNoBase (scale : BitVec 2) (index : BitVec 3) (disp : BitVec 32)
  deriving DecidableEq, Repr

/-- The r/m operand: a register (mod = 3) or memory (30_encoding.md R108). -/
inductive Rm where
  | reg (n : BitVec 3)
  | mem (m : MemForm)
  deriving DecidableEq, Repr

/-- A memory offset of opcodes A0 to A3: as wide as the address size (30_encoding.md R115). -/
inductive Moffs where
  | o16 (o : BitVec 16)
  | o32 (o : BitVec 32)
  | o64 (o : BitVec 64)
  deriving DecidableEq, Repr

/-- The 45 rows. `p` holds the prefixes; `reg` and `r` are 3-bit register fields before their REX extension; `sreg`, `cr`,
`dr` are the 3-bit ModR/M reg field; `mod` is the ModR/M field that MOV CR and MOV DR ignore (R108). -/
inductive Instr where
  -- 40_mov_data.md: opcodes 88 to 8B
  | movRm8R8 (p : Prefixes) (rm : Rm) (reg : BitVec 3)
  | movRm8R8Rex (p : Prefixes) (rm : Rm) (reg : BitVec 3)
  | movRm16R16 (p : Prefixes) (rm : Rm) (reg : BitVec 3)
  | movRm32R32 (p : Prefixes) (rm : Rm) (reg : BitVec 3)
  | movRm64R64 (p : Prefixes) (rm : Rm) (reg : BitVec 3)
  | movR8Rm8 (p : Prefixes) (reg : BitVec 3) (rm : Rm)
  | movR8Rm8Rex (p : Prefixes) (reg : BitVec 3) (rm : Rm)
  | movR16Rm16 (p : Prefixes) (reg : BitVec 3) (rm : Rm)
  | movR32Rm32 (p : Prefixes) (reg : BitVec 3) (rm : Rm)
  | movR64Rm64 (p : Prefixes) (reg : BitVec 3) (rm : Rm)
  -- 41_mov_sreg.md: opcodes 8C, 8E
  | movRm16Sreg (p : Prefixes) (rm : Rm) (sreg : BitVec 3)
  | movRm32Sreg (p : Prefixes) (rm : Rm) (sreg : BitVec 3)
  | movRm64Sreg (p : Prefixes) (rm : Rm) (sreg : BitVec 3)
  | movSregRm16 (p : Prefixes) (sreg : BitVec 3) (rm : Rm)
  | movSregRm64 (p : Prefixes) (sreg : BitVec 3) (rm : Rm)
  -- 40_mov_data.md: opcodes A0 to A3
  | movAlMoffs8 (p : Prefixes) (o : Moffs)
  | movAlMoffs8RexW (p : Prefixes) (o : Moffs)
  | movAxMoffs16 (p : Prefixes) (o : Moffs)
  | movEaxMoffs32 (p : Prefixes) (o : Moffs)
  | movRaxMoffs64 (p : Prefixes) (o : Moffs)
  | movMoffs8Al (p : Prefixes) (o : Moffs)
  | movMoffs8AlRexW (p : Prefixes) (o : Moffs)
  | movMoffs16Ax (p : Prefixes) (o : Moffs)
  | movMoffs32Eax (p : Prefixes) (o : Moffs)
  | movMoffs64Rax (p : Prefixes) (o : Moffs)
  -- 40_mov_data.md: opcodes B0 to BF
  | movR8Imm8 (p : Prefixes) (r : BitVec 3) (imm : BitVec 8)
  | movR8Imm8Rex (p : Prefixes) (r : BitVec 3) (imm : BitVec 8)
  | movR16Imm16 (p : Prefixes) (r : BitVec 3) (imm : BitVec 16)
  | movR32Imm32 (p : Prefixes) (r : BitVec 3) (imm : BitVec 32)
  | movR64Imm64 (p : Prefixes) (r : BitVec 3) (imm : BitVec 64)
  -- 40_mov_data.md: opcodes C6 /0, C7 /0
  | movRm8Imm8 (p : Prefixes) (rm : Rm) (imm : BitVec 8)
  | movRm8Imm8Rex (p : Prefixes) (rm : Rm) (imm : BitVec 8)
  | movRm16Imm16 (p : Prefixes) (rm : Rm) (imm : BitVec 16)
  | movRm32Imm32 (p : Prefixes) (rm : Rm) (imm : BitVec 32)
  | movRm64Imm32 (p : Prefixes) (rm : Rm) (imm : BitVec 32)
  -- 42_mov_cr.md: opcodes 0F 20, 0F 22
  | movR32Cr (p : Prefixes) (mod : BitVec 2) (cr r : BitVec 3)
  | movR64Cr (p : Prefixes) (mod : BitVec 2) (cr r : BitVec 3)
  | movR64Cr8 (p : Prefixes) (mod : BitVec 2) (r : BitVec 3)
  | movCrR32 (p : Prefixes) (mod : BitVec 2) (cr r : BitVec 3)
  | movCrR64 (p : Prefixes) (mod : BitVec 2) (cr r : BitVec 3)
  | movCr8R64 (p : Prefixes) (mod : BitVec 2) (r : BitVec 3)
  -- 43_mov_dr.md: opcodes 0F 21, 0F 23
  | movR32Dr (p : Prefixes) (mod : BitVec 2) (dr r : BitVec 3)
  | movR64Dr (p : Prefixes) (mod : BitVec 2) (dr r : BitVec 3)
  | movDrR32 (p : Prefixes) (mod : BitVec 2) (dr r : BitVec 3)
  | movDrR64 (p : Prefixes) (mod : BitVec 2) (dr r : BitVec 3)
  deriving DecidableEq, Repr

end Sys2Proof
end

