-- ==== Sys2Proof/Machine/State.lean ====
section
/-! DEFINITION. The state of the machine: every piece of state that 10_state.md names, as plain data, with the reasons a step can
stop and the state after reset. -/

namespace Sys2Proof.Machine

/-- The operating modes (10_state.md R34). -/
inductive Mode where
  | real | v86 | prot | compat | long64
  deriving DecidableEq, Repr

/-- The hidden part of a segment register (41_mov_sreg.md R186). -/
structure Hidden where
  null : Bool
  d    : Descriptor
  deriving DecidableEq, Repr

/-- A segment register: the visible selector and the hidden part (10_state.md R30). -/
structure SegmentRegister where
  sel    : Selector
  hidden : Hidden
  deriving DecidableEq, Repr

/-- GDTR (10_state.md R35, R52). -/
structure Gdtr where
  base  : Quad
  limit : BitVec 16
  deriving DecidableEq, Repr

/-- LDTR: its selector and the base and limit of the table (10_state.md R35, R52; 41_mov_sreg.md R187). -/
structure Ldtr where
  sel   : Selector
  base  : Quad
  limit : BitVec 32
  deriving DecidableEq, Repr

/-- A run of physical addresses that the platform backs with ordinary memory (20_memory.md R76). -/
structure Region where
  base : Nat
  size : Nat
  deriving DecidableEq, Repr

/-- The whole state. INVENTORY.md lists the rule and the reset value of each field. -/
structure State where
  /-- x[0] to x[15] (R20, R21). -/
  gpr : Vector Quad 16
  /-- RIP, EIP or IP (R27). -/
  pc : Quad
  /-- RFLAGS (R28). -/
  flags : Quad
  es : SegmentRegister
  cs : SegmentRegister
  ss : SegmentRegister
  ds : SegmentRegister
  fs : SegmentRegister
  gs : SegmentRegister
  /-- The current privilege level (R33). -/
  cpl : BitVec 2
  cr0 : Quad
  cr2 : Quad
  cr3 : Quad
  cr4 : Quad
  cr8 : Quad
  /-- EFER.LME (R232), which a part without Intel 64 reads as 0 (00_scope.md R6; entry 5). -/
  lme : Bool
  /-- EFER.LMA (R46), which a part without Intel 64 reads as 0 (00_scope.md R6; entry 5). -/
  lma : Bool
  dr0 : Quad
  dr1 : Quad
  dr2 : Quad
  dr3 : Quad
  dr6 : Quad
  dr7 : Quad
  gdtr : Gdtr
  ldtr : Ldtr
  /-- The processor's copy of the four PDPT entries (R51). -/
  pdpte : Vector Quad 4
  /-- `ss_shadow`, the inhibition after MOV SS (R49). -/
  ssShadow : Bool
  /-- Physical memory: the listed bytes (R61, R76). -/
  mem : List Host.Cell
  /-- The backed physical addresses (R76, D20). No instruction changes them. -/
  backing : List Region
  /-- The implementation parameters (R6 to R14). No instruction changes them. -/
  cfg : Params
  /-- The model's own: the instruction before this one was a completed load of SS, whatever it left in `ss_shadow` (41_mov_sreg.md
  R200, U6; entry 7). -/
  afterMovSs : Bool
  /-- The model's own: the index of the next free value (R29, R53). -/
  draws : Nat
  /-- The model's own: a token for what the TLBs and paging-structure caches hold, which only the oracle `Translate` reads
  (R50, R83, D18). -/
  caches : Nat
  deriving DecidableEq, Repr

/-- The exceptions (60_exceptions.md R270). Each ends the run and carries its error code, for #PF the linear address, and the
state before the instruction with no inhibition after MOV SS (R272, R273, R276, R291; D4): no write of the instruction is in it.
All are raised by Machine/Ops.lean's `raise` alone. Safe: what a handler would do next cannot be claimed. -/
inductive Fault where
  /-- #UD: raised by `guardLock`, `sregOf`, `crOf`, `drOf`, the load of CS. Safe. -/
  | ud (pre : State)
  /-- #GP: raised by `segCheck`, `fetchByte`, the load of a segment register, `guardV86`, `guardCpl0`, `writeCr`, `writeDr64`.
  The code is none in real-address mode (R274). Safe. -/
  | gp (code : Option (BitVec 16)) (pre : State)
  /-- #SS: raised by `segCheck` and by the load of SS. The code is none in real-address mode. Safe. -/
  | ss (code : Option (BitVec 16)) (pre : State)
  /-- #NP: raised by the load of DS, ES, FS, GS. Safe. -/
  | np (code : Option (BitVec 16)) (pre : State)
  /-- #PF: raised where `Translate` or `FetchDescriptor` answers a page fault; `la` is the faulting linear address (R275). That
  the code has 32 bits is DESIGN CHOICE (entry 9). Safe. -/
  | pf (code : BitVec 32) (la : Quad) (pre : State)
  /-- #AC: raised by `alignCheck`. Safe. -/
  | ac (code : Option (BitVec 16)) (pre : State)
  /-- #DB: raised by `guardDetect`. Safe. -/
  | db (pre : State)
  deriving DecidableEq, Repr

/-- What a step meets that 30_encoding.md R132 refuses as `not_in_spec`. -/
inductive NotInSpec where
  /-- The bytes are none of the 45 rows (R119, R121, R130). -/
  | encoding
  /-- The instruction bytes or the next `pc` leave the offset space (R27, D28). -/
  | pcWrap
  /-- DR7 arms a breakpoint and the parameter says to refuse (R263, D32). -/
  | armedBreakpoints
  /-- The state breaks a condition on launch states (70_reset_and_hazards.md R311, D3; entry 34). -/
  | illFormedLaunch
  deriving DecidableEq, Repr

/-- The reasons the model has no meaning (30_encoding.md R132). All are safe: they end the run where hardware goes on. -/
inductive Refusal where
  /-- Raised by an arm of `exec` that has no meaning yet. Safe. -/
  | notModelled (mnemonic : String)
  /-- Raised by the fetch and the step. Safe. -/
  | notInSpec (why : NotInSpec)
  /-- Raised by the fetch: F2, F3, a doubled prefix, two of one group, a misplaced REX (D12). Safe. -/
  | prefixNotModelled
  /-- Raised by the fetch: more than 15 bytes (D21). Safe. -/
  | tooLong
  /-- Raised by `resolve`, `fetchByte`, the descriptor and PDPT reads: no ordinary memory at the address (R76, D20). Safe. -/
  | unbackedMemory
  deriving DecidableEq, Repr

/-- The hidden part of a data segment register at reset (R52; entries 1 and 2). -/
def Hidden.reset (base : Quad) : Hidden where
  null := false
  d := { kind := .data true false, dpl := 0, present := true, base := base, limit := 0xFFFF, big := false, long := false }

/-- A segment register other than CS at reset (R52; entries 1 and 2). -/
def SegmentRegister.reset : SegmentRegister where
  sel := 0
  hidden := Hidden.reset 0

/-- The machine right after reset: the power-up table of 10_state.md R52, which the spec gives as general knowledge, for
reference (PRESUMED, entry 1), and the values of entries 2 to 5, 7 and 9. Unsafe: no source states them. -/
def State.reset : State where
  gpr := Vector.replicate 16 0
  pc := 0xFFF0
  flags := 2
  es := .reset
  cs := { sel := 0xF000, hidden := Hidden.reset 0xFFFF0000 }
  ss := .reset
  ds := .reset
  fs := .reset
  gs := .reset
  cpl := 0
  cr0 := 0x60000010
  cr2 := 0
  cr3 := 0
  cr4 := 0
  cr8 := 0
  lme := false
  lma := false
  dr0 := 0
  dr1 := 0
  dr2 := 0
  dr3 := 0
  dr6 := 0xFFFF0FF0
  dr7 := 0x400
  gdtr := { base := 0, limit := 0xFFFF }
  ldtr := { sel := 0, base := 0, limit := 0xFFFF }
  pdpte := Vector.replicate 4 0
  ssShadow := false
  afterMovSs := false
  mem := []
  backing := [{ base := 0, size := 2 ^ 52 }]
  cfg := .default
  draws := 0
  caches := 0

end Sys2Proof.Machine
end

