-- ==== Sys2Proof/Machine/Oracle.lean ====
section
/-! DEFINITION. The oracles that read the state (00_scope.md R12, R13). None has a body: a statement holds for every oracle. -/

namespace Sys2Proof

/-- `Translate(s, la, kind)`: paging (20_memory.md R74, D10). It reads the whole state, `caches` among it, so it may answer from
a cached translation (D18). -/
opaque Config.translate : Machine.State → Quad → AccessKind → Translation

/-- `FetchDescriptor(s, sel)` (41_mov_sreg.md R187, D11), used where `cfg.descriptorSource` is `oracle`. -/
opaque Config.fetchDescriptor : Machine.State → Selector → DescriptorResult

/-- Whether a reserved bit is set in the page-directory pointers table that the state has just loaded (20_memory.md R75). -/
opaque Config.pdptReservedBitSet : Machine.State → Bool

/-- What the TLBs and paging-structure caches hold after an instruction completes from a state: the accesses it made and
what it invalidates (20_memory.md R83; U17, U18). -/
opaque Config.cachesAfter : Instr → Machine.State → Nat

end Sys2Proof
end

