-- ==== Sys2Proof/Machine/Mode.lean ====
section
/-! DEFINITION. The control-register bits that the rules read, the operating mode, the code size and the privilege level
(10_state.md R33, R34, R37 to R48; 30_encoding.md R100). -/

namespace Sys2Proof.Machine

/-- CR0.PE, CR0.ET, CR0.AM, CR0.NW, CR0.CD, CR0.PG (R37, R38). -/
def cr0PE (v : Quad) : Bool := v.getLsbD 0
@[inherit_doc cr0PE] def cr0ET (v : Quad) : Bool := v.getLsbD 4
@[inherit_doc cr0PE] def cr0AM (v : Quad) : Bool := v.getLsbD 18
@[inherit_doc cr0PE] def cr0NW (v : Quad) : Bool := v.getLsbD 29
@[inherit_doc cr0PE] def cr0CD (v : Quad) : Bool := v.getLsbD 30
@[inherit_doc cr0PE] def cr0PG (v : Quad) : Bool := v.getLsbD 31

/-- CR4.DE, CR4.PSE, CR4.PAE, CR4.PGE, CR4.PCIDE, CR4.SMEP (R42, R43). -/
def cr4DE (v : Quad) : Bool := v.getLsbD 3
@[inherit_doc cr4DE] def cr4PSE (v : Quad) : Bool := v.getLsbD 4
@[inherit_doc cr4DE] def cr4PAE (v : Quad) : Bool := v.getLsbD 5
@[inherit_doc cr4DE] def cr4PGE (v : Quad) : Bool := v.getLsbD 7
@[inherit_doc cr4DE] def cr4PCIDE (v : Quad) : Bool := v.getLsbD 17
@[inherit_doc cr4DE] def cr4SMEP (v : Quad) : Bool := v.getLsbD 20

/-- RFLAGS.VM and RFLAGS.AC (R28). -/
def flagsVM (v : Quad) : Bool := v.getLsbD 17
@[inherit_doc flagsVM] def flagsAC (v : Quad) : Bool := v.getLsbD 18

/-- DR7.GD (R48). -/
def dr7GD (v : Quad) : Bool := v.getLsbD 13

/-- EFER.LME and EFER.LMA as the rules read them: 0 on a part without Intel 64, which has no IA-32e mode (00_scope.md R6; entry 5). -/
def State.longEnabled (s : State) : Bool := s.cfg.arch64 && s.lme
@[inherit_doc State.longEnabled] def State.longActive (s : State) : Bool := s.cfg.arch64 && s.lma

/-- `Mode(s)` (R34): 64-bit and compatibility mode only on a part with Intel 64 (00_scope.md R6). -/
def State.mode (s : State) : Mode :=
  if !cr0PE s.cr0 then .real
  else if s.longActive then (if s.cs.hidden.d.long then .long64 else .compat)
  else if flagsVM s.flags then .v86
  else .prot

/-- IA-32e mode: 64-bit or compatibility mode (R34). -/
def State.ia32e (s : State) : Bool := s.mode == .long64 || s.mode == .compat

/-- The code size that the mode and CS.hidden.d.big select (30_encoding.md R100, R101). -/
def State.codeSize (s : State) : CodeSize :=
  match s.mode with
  | .long64 => .c64
  | .real | .v86 => .c16
  | .prot | .compat => if s.cs.hidden.d.big then .c32 else .c16

/-- CPL: 0 in real-address mode, 3 in virtual-8086 mode, else as held (R33; entry 8). -/
def State.privilege (s : State) : BitVec 2 :=
  match s.mode with
  | .real => 0
  | .v86 => 3
  | _ => s.cpl

/-- CR4.DE as the rules read it: 0 on a part without CR4 or without the bit (00_scope.md R11, 43_mov_dr.md R252). -/
def State.debugExtensions (s : State) : Bool := s.cfg.hasCr4 && s.cfg.hasDe && cr4DE s.cr4

/-- Paging is on: CR0.PG = 1, outside real-address mode, whose exception list has no #PF (20_memory.md R74; entry 9). -/
def State.pagingOn (s : State) : Bool := cr0PG s.cr0 && s.mode != .real

/-- The first known answer of `Translate` for an access, if there is one (00_scope.md R13, D10; entry 9). -/
def knownTranslation : List KnownTranslation → Quad → AccessKind → Option Translation
  | [], _, _ => none
  | r :: rs, la, k =>
    if r.kind = k ∧ r.first ≤ la.toNat ∧ la.toNat < r.first + r.size then
      match r.answer with
      | .phys pa => some (.phys (pa + BitVec.ofNat 64 (la.toNat - r.first)))
      | .pageFault c => some (.pageFault c)
    else knownTranslation rs la k

/-- `Translate`, the identity when paging is off (20_memory.md R74); a known answer goes before the oracle's. -/
def State.translate (s : State) (la : Quad) (k : AccessKind) : Translation :=
  if s.pagingOn then (knownTranslation s.cfg.translations la k).getD (Config.translate s la k) else .phys la

/-- Whether the platform backs a physical address with ordinary memory (20_memory.md R76). -/
def State.backed (s : State) (a : Nat) : Bool := s.backing.any fun r => decide (r.base ≤ a) && decide (a < r.base + r.size)

/-- Canonical form of a linear address: bits 63 down to `LA_BITS - 1` are all equal (20_memory.md R70). -/
def State.canonical (s : State) (la : Quad) : Bool :=
  la.sshiftRight (s.cfg.laBits - 1) == 0 || la.sshiftRight (s.cfg.laBits - 1) == BitVec.allOnes 64

end Sys2Proof.Machine
end

