-- ==== Sys2Proof/Machine/Flags.lean ====
section
/-! DEFINITION. The status flags (10_state.md R28, R29). The 35 rows of the MOV page write no flag; the MOV CR and MOV DR rows leave the six
status flags undefined. No row computes a flag. -/

namespace Sys2Proof.Machine

/-- CF, PF, AF, ZF, SF, OF in a value of RFLAGS (R28). -/
def flagsCF (v : Quad) : Bool := v.getLsbD 0
@[inherit_doc flagsCF] def flagsPF (v : Quad) : Bool := v.getLsbD 2
@[inherit_doc flagsCF] def flagsAF (v : Quad) : Bool := v.getLsbD 4
@[inherit_doc flagsCF] def flagsZF (v : Quad) : Bool := v.getLsbD 6
@[inherit_doc flagsCF] def flagsSF (v : Quad) : Bool := v.getLsbD 7
@[inherit_doc flagsCF] def flagsOF (v : Quad) : Bool := v.getLsbD 11

/-- The six status flags' places in RFLAGS (R28). -/
def statusMask : Quad := 0x8D5

/-- One bit at a place of RFLAGS. -/
def flagAt (b : Bool) (n : Nat) : Quad := (BitVec.ofBool b).setWidth 64 <<< n

/-- RFLAGS with the six status flags replaced: bits 0 to 5 of `d` are CF, PF, AF, ZF, SF, OF (R28). -/
def withStatus (v : Quad) (d : BitVec 6) : Quad :=
  (v &&& ~~~statusMask) ||| flagAt (d.getLsbD 0) 0 ||| flagAt (d.getLsbD 1) 2 ||| flagAt (d.getLsbD 2) 4 |||
    flagAt (d.getLsbD 3) 6 ||| flagAt (d.getLsbD 4) 7 ||| flagAt (d.getLsbD 5) 11

/-- The state after "The OF, SF, ZF, AF, PF, and CF flags are undefined": six draws, every other flag kept (R29, U1). -/
def State.drawFlags (s : State) : State := { s with flags := withStatus s.flags (Config.freeFlags s.draws) }

end Sys2Proof.Machine
end

