-- ==== Sys2Proof/Machine/Sizes.lean ====
section
/-! DEFINITION. What the prefixes and the mode make of an encoding: operand size, address size, register numbers, lengths
(30_encoding.md R92, R100, R101, R104). -/

namespace Sys2Proof

/-- The width in bytes. -/
def Width.bytes : Width → Nat
  | .b8 => 1
  | .b16 => 2
  | .b32 => 4
  | .b64 => 8

/-- REX.W, 0 without a REX prefix (R99, R104). -/
def Prefixes.rexW (p : Prefixes) : Bool := match p.rex with | some x => x.w | none => false
/-- REX.R, 0 without a REX prefix (R99, R104). -/
def Prefixes.rexR (p : Prefixes) : Bool := match p.rex with | some x => x.r | none => false
/-- REX.X, 0 without a REX prefix (R99, R104). -/
def Prefixes.rexX (p : Prefixes) : Bool := match p.rex with | some x => x.x | none => false
/-- REX.B, 0 without a REX prefix (R99, R104). -/
def Prefixes.rexB (p : Prefixes) : Bool := match p.rex with | some x => x.b | none => false

/-- A register number: the extension bit before the 3-bit field (R104). -/
def extendReg (bit : Bool) (field : BitVec 3) : BitVec 4 := BitVec.ofBool bit ++ field

/-- `osz`, the operand size of a non-byte row (R100). -/
def operandSize (c : CodeSize) (p : Prefixes) : Width :=
  match c with
  | .c64 => if p.rexW then .b64 else if p.opsize then .b16 else .b32
  | .c32 => if p.opsize then .b16 else .b32
  | .c16 => if p.opsize then .b32 else .b16

/-- `asz`, the address size (R101). -/
def addressSize (c : CodeSize) (p : Prefixes) : Width :=
  match c with
  | .c64 => if p.addrsize then .b32 else .b64
  | .c32 => if p.addrsize then .b16 else .b32
  | .c16 => if p.addrsize then .b32 else .b16

/-- The number of prefix bytes, P of R92. -/
def Prefixes.length (p : Prefixes) : Nat :=
  p.lock.toNat + p.seg.isSome.toNat + p.opsize.toNat + p.addrsize.toNat + p.rex.isSome.toNat

/-- The number of displacement bytes after a 16-bit ModR/M byte (R109). -/
def Disp16.length : Disp16 → Nat
  | .d0 => 0
  | .d8 _ => 1
  | .d16 _ => 2

/-- The number of displacement bytes after a 32- or 64-bit ModR/M byte (R110, R111). -/
def Disp32.length : Disp32 → Nat
  | .d0 => 0
  | .d8 _ => 1
  | .d32 _ => 4

/-- The number of bytes of a memory form after the ModR/M byte. -/
def MemForm.length : MemForm → Nat
  | .base16 _ d => d.length
  | .abs16 _ => 2
  | .base _ d => d.length
  | .disp _ => 4
  | .sib _ _ _ d => 1 + d.length
  | .sibNoBase _ _ _ => 5

/-- The ModR/M part, M of R92. -/
def Rm.length : Rm → Nat
  | .reg _ => 1
  | .mem m => 1 + m.length

/-- The offset bytes of A0 to A3 (R115). -/
def Moffs.length : Moffs → Nat
  | .o16 _ => 2
  | .o32 _ => 4
  | .o64 _ => 8

/-- The length of an instruction in bytes: `len = P + O + M + I` (R92). -/
def Instr.length : Instr → Nat
  | .movRm8R8 p rm _ | .movRm8R8Rex p rm _ | .movRm16R16 p rm _ | .movRm32R32 p rm _ | .movRm64R64 p rm _ => p.length + 1 + rm.length
  | .movR8Rm8 p _ rm | .movR8Rm8Rex p _ rm | .movR16Rm16 p _ rm | .movR32Rm32 p _ rm | .movR64Rm64 p _ rm => p.length + 1 + rm.length
  | .movRm16Sreg p rm _ | .movRm32Sreg p rm _ | .movRm64Sreg p rm _ => p.length + 1 + rm.length
  | .movSregRm16 p _ rm | .movSregRm64 p _ rm => p.length + 1 + rm.length
  | .movAlMoffs8 p o | .movAlMoffs8RexW p o | .movAxMoffs16 p o | .movEaxMoffs32 p o | .movRaxMoffs64 p o => p.length + 1 + o.length
  | .movMoffs8Al p o | .movMoffs8AlRexW p o | .movMoffs16Ax p o | .movMoffs32Eax p o | .movMoffs64Rax p o => p.length + 1 + o.length
  | .movR8Imm8 p _ _ | .movR8Imm8Rex p _ _ => p.length + 1 + 1
  | .movR16Imm16 p _ _ => p.length + 1 + 2
  | .movR32Imm32 p _ _ => p.length + 1 + 4
  | .movR64Imm64 p _ _ => p.length + 1 + 8
  | .movRm8Imm8 p rm _ | .movRm8Imm8Rex p rm _ => p.length + 1 + rm.length + 1
  | .movRm16Imm16 p rm _ => p.length + 1 + rm.length + 2
  | .movRm32Imm32 p rm _ | .movRm64Imm32 p rm _ => p.length + 1 + rm.length + 4
  | .movR32Cr p _ _ _ | .movR64Cr p _ _ _ | .movR64Cr8 p _ _ => p.length + 2 + 1
  | .movCrR32 p _ _ _ | .movCrR64 p _ _ _ | .movCr8R64 p _ _ => p.length + 2 + 1
  | .movR32Dr p _ _ _ | .movR64Dr p _ _ _ | .movDrR32 p _ _ _ | .movDrR64 p _ _ _ => p.length + 2 + 1

end Sys2Proof
end

