-- ==== Sys2Proof/Machine/Ops.lean ====
section
/-! DEFINITION. The named operations over registers and memory, raising an exception, and completing an instruction. -/

namespace Sys2Proof.Machine

/-! ## Raising an exception (60_exceptions.md R270 to R276) -/

/-- An exception with its error code (R273); `la` is the linear address of #PF (R275). -/
inductive Exception where
  | ud
  | gp (code : BitVec 16)
  | ss (code : BitVec 16)
  | np (code : BitVec 16)
  | pf (code : BitVec 32) (la : Quad)
  | ac (code : BitVec 16)
  | db
  deriving DecidableEq, Repr

/-- Why an instruction does not complete. -/
inductive Stop where
  | exc (e : Exception)
  | refuse (r : Refusal)
  deriving DecidableEq, Repr

/-- The result of a part of an instruction. -/
abbrev Res (α : Type) := Except Stop α

/-- The error code as the outcome carries it: none in real-address mode (R274). -/
def State.errorCode (s : State) (c : BitVec 16) : Option (BitVec 16) := if s.mode = .real then none else some c

/-- The state that an exception leaves: nothing of the instruction is written, `pc` is at its first byte, and the inhibition after
a load of SS has ended (R272, R291; 41_mov_sreg.md R200). -/
def State.atFault (s : State) : State := { s with ssShadow := false, afterMovSs := false }

/-- Raising an exception: the terminal outcome of R276 (D4). The spec describes no delivery (R278), so nothing is pushed and
`pc` does not move (entry 6). -/
def State.raise (s : State) : Exception → Fault
  | .ud => .ud s.atFault
  | .gp c => .gp (s.errorCode c) s.atFault
  | .ss c => .ss (s.errorCode c) s.atFault
  | .np c => .np (s.errorCode c) s.atFault
  | .pf c la => .pf c la s.atFault
  | .ac c => .ac (s.errorCode c) s.atFault
  | .db => .db s.atFault

/-- The vector number of an exception (R270), for a delivery function (R276). -/
def Fault.vector : Fault → Nat
  | .db _ => 1
  | .ud _ => 6
  | .np _ _ => 11
  | .ss _ _ => 12
  | .gp _ _ => 13
  | .pf _ _ _ => 14
  | .ac _ _ => 17

/-- The state that a fault carries. -/
def Fault.state : Fault → State
  | .db s | .ud s | .np _ s | .ss _ s | .gp _ s | .pf _ _ s | .ac _ s => s

/-- The outcome of an instruction that does not complete. -/
def State.stop (s : State) : Stop → Host.Outcome State Fault Refusal
  | .exc e => .fault (s.raise e)
  | .refuse r => .refused r

/-- The error code `(selector)`: the selector with bits 1:0 cleared (41_mov_sreg.md R196). -/
def selectorCode (sel : Selector) : BitVec 16 := sel &&& 0xFFFC

/-! ## General registers (10_state.md R20 to R25) -/

/-- `x[n]`. -/
def State.x (s : State) (n : BitVec 4) : Quad := s.gpr[n.toNat]'n.isLt

/-- `x[n] <- v`. -/
def State.setX (s : State) (n : BitVec 4) (v : Quad) : State := { s with gpr := s.gpr.set n.toNat v n.isLt }

/-- `trunc_w(v)`, zero-extended to 64 bits (R15). -/
def truncTo (w : Width) (v : Quad) : Quad :=
  match w with
  | .b8 => (v.setWidth 8).setWidth 64
  | .b16 => (v.setWidth 16).setWidth 64
  | .b32 => (v.setWidth 32).setWidth 64
  | .b64 => v

/-- Whether a byte-register number names AH, CH, DH or BH: codes 4 to 7 without a REX prefix (R24, R25). -/
def isHighByte (rex : Bool) (n : BitVec 4) : Bool := !rex && n.extractLsb' 2 2 == 1

/-- `Reg8Read` (R24, R25). -/
def State.readReg8 (s : State) (rex : Bool) (n : BitVec 4) : Byte :=
  if isHighByte rex n then (s.x (n - 4)).extractLsb' 8 8 else (s.x n).extractLsb' 0 8

/-- `Reg8Write` (R24, R25): the other 56 bits are kept. -/
def State.writeReg8 (s : State) (rex : Bool) (n : BitVec 4) (v : Byte) : State :=
  if isHighByte rex n then s.setX (n - 4) ((s.x (n - 4)).extractLsb' 16 48 ++ v ++ (s.x (n - 4)).extractLsb' 0 8)
  else s.setX n ((s.x n).extractLsb' 8 56 ++ v)

/-- The bits that a 32-bit write puts above it: zero in 64-bit mode, a free value elsewhere (R23, U14; entry 23). -/
def State.upper32 (s : State) : BitVec 32 := if s.mode = .long64 then 0 else Config.freeGprUpper s.draws

/-- `RegRead` and `Reg8Read`: a register of width `w`, zero-extended to 64 bits (R22, R24, R25). `rex` says whether a REX
prefix is present. -/
def State.readReg (s : State) (rex : Bool) (w : Width) (n : BitVec 4) : Quad :=
  match w with
  | .b8 => (s.readReg8 rex n).setWidth 64
  | w => truncTo w (s.x n)

/-- `RegWrite` and `Reg8Write`: the low `w` bits of `v` into a register of width `w` (R23 to R25). -/
def State.writeReg (s : State) (rex : Bool) (w : Width) (n : BitVec 4) (v : Quad) : State :=
  match w with
  | .b8 => s.writeReg8 rex n (v.setWidth 8)
  | .b16 => s.setX n ((s.x n).extractLsb' 16 48 ++ v.setWidth 16)
  | .b32 => s.setX n (s.upper32 ++ v.setWidth 32)
  | .b64 => s.setX n v

/-! ## Segment registers (10_state.md R30, R31) -/

/-- `Sreg[g]`. -/
def State.seg (s : State) : SegReg → SegmentRegister
  | .es => s.es
  | .cs => s.cs
  | .ss => s.ss
  | .ds => s.ds
  | .fs => s.fs
  | .gs => s.gs

/-- `Sreg[g] <- v`. -/
def State.setSeg (s : State) (g : SegReg) (v : SegmentRegister) : State :=
  match g with
  | .es => { s with es := v }
  | .cs => { s with cs := v }
  | .ss => { s with ss := v }
  | .ds => { s with ds := v }
  | .fs => { s with fs := v }
  | .gs => { s with gs := v }

/-- The segment register that a ModR/M reg field names; 6 and 7 name none (R31). -/
def segOfCode (c : BitVec 3) : Option SegReg :=
  if c = 0 then some .es
  else if c = 1 then some .cs
  else if c = 2 then some .ss
  else if c = 3 then some .ds
  else if c = 4 then some .fs
  else if c = 5 then some .gs
  else none

/-! ## The memory access (20_memory.md R66) -/

/-- Whether `n` bytes at `ea` are inside the limit (R68), computed without wrap-around. -/
def inLimit (d : Descriptor) (ea n : Nat) : Bool :=
  match d.kind with
  | .data _ true => decide (d.limit.toNat < ea) && decide (ea + n ≤ (if d.big then 0x100000000 else 0x10000))
  | _ => decide (ea + n ≤ d.limit.toNat + 1)

/-- Whether a segment can be written (R67): a writable data segment. -/
def segWritable : SegKind → Bool
  | .data w _ => w
  | _ => false

/-- Whether a segment can be read (R67, U20; entry 16): a data segment or a readable code segment. -/
def segReadable : SegKind → Bool
  | .data _ _ => true
  | .code r _ => r
  | .system => false

/-- The linear address of byte `k` of an access at `ea` (R68 outside 64-bit mode, R69 in it). -/
def State.linear (s : State) (g : SegReg) (ea : Quad) (k : Nat) : Quad :=
  if s.mode = .long64 then
    (if g = .fs ∨ g = .gs then (s.seg g).hidden.d.base else 0) + ea + BitVec.ofNat 64 k
  else truncTo .b32 ((s.seg g).hidden.d.base + ea + BitVec.ofNat 64 k)

/-- #SS(0) for the stack segment, #GP(0) for another (R67, R71). -/
def segFault (g : SegReg) : Stop := .exc (if g = .ss then .ss 0 else .gp 0)

/-- The segment checks of an access of `n` bytes: R71 in 64-bit mode, R67 elsewhere. A NULL segment is any of the six (R67 (a), U5;
entry 24). The order of (a), (b) and (c) is DESIGN CHOICE: the spec orders no two faults of this stage (U21; entry 25). -/
def State.segCheck (s : State) (g : SegReg) (ea : Quad) (n : Nat) (write : Bool) : Res Unit :=
  let h := (s.seg g).hidden
  let isProt := s.mode == .prot || s.mode == .compat
  if s.mode = .long64 then
    if (List.range n).all fun k => s.canonical (s.linear g ea k) then .ok () else .error (segFault g)
  else if isProt && h.null then .error (.exc (.gp 0))
  else if isProt && write && !segWritable h.d.kind then .error (.exc (.gp 0))
  else if isProt && !write && !segReadable h.d.kind then .error (.exc (.gp 0))
  else if inLimit h.d ea.toNat n then .ok () else .error (segFault g)

/-- Alignment checking is enabled and the mode and privilege make it count (R72). -/
def State.alignChecked (s : State) : Bool :=
  cr0AM s.cr0 && flagsAC s.flags &&
    (match s.mode with
     | .real => false
     | .v86 => true
     | _ => s.privilege == 3)

/-- The alignment check of an access of `n` bytes at a linear address (R72). -/
def State.alignCheck (s : State) (la : Quad) (n : Nat) : Res Unit :=
  if s.alignChecked && decide (la.toNat % n ≠ 0) then .error (.exc (.ac 0)) else .ok ()

/-- The privilege of a data access for `Translate` (R74). -/
def State.dataKind (s : State) (t : AccessType) : AccessKind := { type := t, user := s.privilege == 3 }

/-- The physical addresses of linear addresses, in order, or a page fault (R66, R74). Where several bytes fault, that of the first in the
list, the lowest byte of the access, is the one reported, with its code and address: DESIGN CHOICE (U21, entry 25), unsafe, since R66, R74
and R277 order no two bytes. -/
def State.physical (s : State) (k : AccessKind) : List Quad → Res (List Nat)
  | [] => .ok []
  | la :: rest =>
    match s.translate la k with
    | .phys pa => do
      let pas ← s.physical k rest
      .ok (pa.toNat :: pas)
    | .pageFault c => .error (.exc (.pf c la))

/-- The physical addresses only if the platform backs every one (R76, D20). -/
def State.requireBacked (s : State) (pas : List Nat) : Res (List Nat) :=
  if pas.all s.backed then .ok pas else .error (.refuse .unbackedMemory)

/-- The physical addresses of the `n` bytes of a data access, after every check of R66, in its order (D5, D19). -/
def State.resolve (s : State) (g : SegReg) (ea : Quad) (n : Nat) (t : AccessType) : Res (List Nat) := do
  s.segCheck g ea n (t == .write)
  s.alignCheck (s.linear g ea 0) n
  let pas ← s.physical (s.dataKind t) ((List.range n).map (s.linear g ea))
  s.requireBacked pas

/-- The bytes at physical addresses, as a value (R62). -/
def State.loadAt (s : State) (pas : List Nat) : Quad := fromBytes (pas.map (Memory.read s.mem))

/-- The state with the low bytes of a value stored at physical addresses (R62). -/
def State.storeAt (s : State) (pas : List Nat) (v : Quad) : State :=
  { s with mem := Memory.writeAll s.mem (pas.zip (toBytes pas.length v)) }

/-- `MemRead(seg, ea, n)`, zero-extended to 64 bits (R66). -/
def State.memRead (s : State) (g : SegReg) (ea : Quad) (n : Nat) : Res Quad := do
  let pas ← s.resolve g ea n .read
  .ok (s.loadAt pas)

/-- `MemWrite(seg, ea, n, v)` (R66). -/
def State.memWrite (s : State) (g : SegReg) (ea : Quad) (n : Nat) (v : Quad) : Res State := do
  let pas ← s.resolve g ea n .write
  .ok (s.storeAt pas v)

/-! ## Checks before the operands are read (60_exceptions.md R277) -/

/-- #UD with a LOCK prefix, on every row (30_encoding.md R95). -/
def guardLock (p : Prefixes) : Res Unit := if p.lock then .error (.exc .ud) else .ok ()

/-- #GP(0) for every MOV CR and MOV DR in virtual-8086 mode, before #UD (42_mov_cr.md R234, 43_mov_dr.md R260; entry 18). -/
def State.guardV86 (s : State) : Res Unit := if s.mode = .v86 then .error (.exc (.gp 0)) else .ok ()

/-- #GP(0) when CPL is not 0 (42_mov_cr.md R211, 43_mov_dr.md R251). -/
def State.guardCpl0 (s : State) : Res Unit := if s.privilege ≠ 0 then .error (.exc (.gp 0)) else .ok ()

/-! ## Completing an instruction -/

/-- `pc + len`, truncated to the width of the offset space (10_state.md R27, D28; entry 14). -/
def State.nextPc (s : State) (len : Nat) : Quad :=
  match s.codeSize with
  | .c64 => s.pc + BitVec.ofNat 64 len
  | .c32 => truncTo .b32 (s.pc + BitVec.ofNat 64 len)
  | .c16 => truncTo .b16 (s.pc + BitVec.ofNat 64 len)

/-- The state after an instruction completes: `s` before it, `t` with its own writes; `pc` advanced (R27), `ss_shadow` as given
(41_mov_sreg.md R200), and the model's own fields (entries 7 and 9); `loadedSs` says whether it was a load of SS. -/
def retire (i : Instr) (s t : State) (shadow loadedSs : Bool) : State :=
  { t with
    pc := s.nextPc i.length
    ssShadow := shadow
    afterMovSs := loadedSs
    draws := s.draws + 1
    caches := Config.cachesAfter i s }

/-- The outcome of an instruction other than a load of SS: it clears `ss_shadow` (41_mov_sreg.md R200). -/
def finish (i : Instr) (s : State) (r : Res State) : Host.Outcome State Fault Refusal :=
  match r with
  | .ok t => .next (retire i s t false false)
  | .error e => s.stop e

/-- `ss_shadow` after a load of SS: set, but a free value when the instruction before was a load of SS too (41_mov_sreg.md R200, U6).
A run that starts with `ss_shadow` set starts after such a load. -/
def State.shadowAfterSs (s : State) : Bool :=
  if s.afterMovSs || s.ssShadow then Config.freeSsShadow s.draws else true

end Sys2Proof.Machine
end

