-- ==== Sys2Proof/Machine/ControlRegs.lean ====
section
/-! DEFINITION. The control registers and the checks of a write (42_mov_cr.md R212, R222 to R229, R232, R233). -/

namespace Sys2Proof.Machine

/-- The control registers that exist (10_state.md R36). -/
inductive CtlReg where
  | cr0 | cr2 | cr3 | cr4 | cr8
  deriving DecidableEq, Repr

/-- The control register of a number; #UD for the numbers that name none, and for CR4 on a part without it (R212, R221, U10;
entry 17). -/
def State.crOf (s : State) (n : BitVec 4) : Res CtlReg :=
  if n = 0 then .ok .cr0
  else if n = 2 then .ok .cr2
  else if n = 3 then .ok .cr3
  else if n = 4 ∧ s.cfg.hasCr4 then .ok .cr4
  else if n = 8 then .ok .cr8
  else .error (.exc .ud)

/-- `CR[n]` (R233). -/
def State.cr (s : State) : CtlReg → Quad
  | .cr0 => s.cr0
  | .cr2 => s.cr2
  | .cr3 => s.cr3
  | .cr4 => s.cr4
  | .cr8 => s.cr8

/-- The reserved bits of CR3: the parameter and bit 63 (10_state.md R40, R224). -/
def cr3Mask (cfg : Params) : Quad := cfg.cr3Reserved ||| 0x8000000000000000

/-- The reserved bits of CR4: the parameter, and PCIDE and DE on a part that lacks them (00_scope.md R11, R226). -/
def cr4Mask (cfg : Params) : Quad :=
  cfg.cr4Reserved ||| (if cfg.hasPcid then 0 else 0x20000) ||| (if cfg.hasDe then 0 else 0x8)

/-- `Cr0Invalid(n)`: the invalid bit combinations in CR0 (R222, U8; entry 20). -/
def cr0Invalid (cfg : Params) (n : Quad) : Bool :=
  (cr0PG n && !cr0PE n) || (!cr0CD n && cr0NW n) || cfg.cr0InvalidExtra.any (fun c => n &&& c.1 == c.2)

/-- The value that a load of CR0 stores: reserved bits clear, ET set where it is fixed (R222). -/
def cr0Stored (cfg : Params) (v : Quad) : Quad :=
  (v &&& ~~~cfg.cr0Reserved) ||| (if cfg.cr0EtFixed then 0x10 else 0)

/-- PAE paging is in use (20_memory.md R75). -/
def State.paePaging (s : State) : Bool := cr0PG s.cr0 && cr4PAE s.cr4 && !s.longActive

/-- A write that takes the state from `s` to `t` loads the PDPT (20_memory.md R75; entry 12). -/
def loadsPdpt (s t : State) (isCr3 : Bool) : Bool :=
  t.paePaging &&
    (isCr3 || cr0PG s.cr0 != cr0PG t.cr0 || cr0CD s.cr0 != cr0CD t.cr0 || cr0NW s.cr0 != cr0NW t.cr0 ||
      cr4PAE s.cr4 != cr4PAE t.cr4 || cr4PGE s.cr4 != cr4PGE t.cr4 || cr4PSE s.cr4 != cr4PSE t.cr4 ||
      cr4SMEP s.cr4 != cr4SMEP t.cr4)

/-- The physical addresses of PDPT entry `k`: 8 bytes in the table at CR3[31:5] ∥ 00000 (20_memory.md R75). -/
def State.pdpteAddrs (s : State) (k : Nat) : List Nat :=
  (List.range 8).map fun j => (s.cr3 &&& 0xFFFFFFE0).toNat + 8 * k + j

/-- The state with the four PDPT entries loaded from memory (20_memory.md R75). -/
def State.withPdpt (s : State) : State :=
  { s with pdpte := #v[s.loadAt (s.pdpteAddrs 0), s.loadAt (s.pdpteAddrs 1), s.loadAt (s.pdpteAddrs 2), s.loadAt (s.pdpteAddrs 3)] }

/-- `PdptLoad`: the candidate state `t` of a write in state `s`, with the PDPT loaded where the write loads it; #GP(0) in protected mode
when a reserved bit is set in it (R229; entry 12). -/
def State.pdptLoad (s t : State) (isCr3 : Bool) : Res State :=
  if loadsPdpt s t isCr3 then
    if (List.range 4).all fun k => (t.pdpteAddrs k).all t.backed then
      if s.mode = .prot ∧ Config.pdptReservedBitSet t.withPdpt then .error (.exc (.gp 0)) else .ok t.withPdpt
    else .error (.refuse .unbackedMemory)
  else .ok t

/-- The candidate state of a load of CR0 with the value `n`: EFER.LMA follows CR0.PG (R232; entry 13), and stays 0 on a part
without Intel 64 (00_scope.md R6; entry 5). -/
def State.withCr0 (s : State) (n : Quad) : State :=
  { s with cr0 := n, lma := if cr0PG s.cr0 != cr0PG n then s.longEnabled && cr0PG n else s.lma }

/-- Whether a load of CR0 with the stored value `n` faults for `n` itself: R222 (a) to (d), and the conditions on setting CR0.PG with
EFER.LME = 1 (R232). -/
def State.cr0Faults (s : State) (n : Quad) : Bool :=
  cr0Invalid s.cfg n ||
  (s.mode == .long64 && cr0PG s.cr0 && !cr0PG n) ||
  (s.mode == .compat && cr0PG s.cr0 && !cr0PG n && cr4PCIDE s.cr4) ||
  (s.longEnabled && !cr0PG s.cr0 && cr0PG n && (!cr4PAE s.cr4 || s.cs.hidden.d.long))

/-- `WriteCR(0, v)` (R222, R232; U7, entry 19). -/
def State.writeCr0 (s : State) (v : Quad) : Res State :=
  if s.mode == .long64 && s.cfg.cr0HighFaults && v.extractLsb' 32 32 != 0 then .error (.exc (.gp 0))
  else if s.cr0Faults (cr0Stored s.cfg v) then .error (.exc (.gp 0))
  else s.pdptLoad (s.withCr0 (cr0Stored s.cfg v)) false

/-- The value that a write of CR3 means to store: with CR4.PCIDE = 1 bit 63 of the source is an operand and not stored (R224). -/
def State.cr3Source (s : State) (v : Quad) : Quad := if cr4PCIDE s.cr4 then v &&& 0x7FFFFFFFFFFFFFFF else v

/-- `WriteCR(3, v)` (R224): reserved bits fault in IA-32e mode and are dropped elsewhere (C10). -/
def State.writeCr3 (s : State) (v : Quad) : Res State :=
  if s.ia32e then
    if s.cr3Source v &&& cr3Mask s.cfg != 0 then .error (.exc (.gp 0)) else s.pdptLoad { s with cr3 := s.cr3Source v } true
  else s.pdptLoad { s with cr3 := s.cr3Source v &&& ~~~cr3Mask s.cfg } true

/-- Whether a load of CR4 faults for its value: reserved bits (R225), PCIDE (R226), PAE (R227). -/
def State.cr4Faults (s : State) (v : Quad) : Bool :=
  v &&& cr4Mask s.cfg != 0 ||
  (if s.ia32e then
    (!cr4PCIDE s.cr4 && cr4PCIDE v && s.cr3.extractLsb' 0 12 != 0) || (cr4PAE s.cr4 && !cr4PAE v)
  else cr4PCIDE v)

/-- `WriteCR(4, v)` (R225 to R227). -/
def State.writeCr4 (s : State) (v : Quad) : Res State :=
  if s.cr4Faults v then .error (.exc (.gp 0)) else s.pdptLoad { s with cr4 := v } false

/-- `WriteCR(8, v)` (R228). -/
def State.writeCr8 (s : State) (v : Quad) : Res State :=
  if v &&& s.cfg.cr8Reserved != 0 then .error (.exc (.gp 0)) else .ok { s with cr8 := v }

/-- `WriteCR(n, v)` (R222 to R228). -/
def State.writeCr (s : State) (c : CtlReg) (v : Quad) : Res State :=
  match c with
  | .cr0 => s.writeCr0 v
  | .cr2 => .ok { s with cr2 := v }
  | .cr3 => s.writeCr3 v
  | .cr4 => s.writeCr4 v
  | .cr8 => s.writeCr8 v

end Sys2Proof.Machine
end

