-- ==== Sys2Proof/Machine/Operands.lean ====
section
/-! DEFINITION. The operand forms: effective addresses, r/m operands, memory offsets, register fields (30_encoding.md R104 to R115). -/

namespace Sys2Proof.Machine

/-- The register of the ModR/M reg field: `reg# = R ∥ reg` (R104). -/
def regField (p : Prefixes) (f : BitVec 3) : BitVec 4 := extendReg p.rexR f

/-- The register of the ModR/M r/m field, of the SIB base and of the opcode's low bits: `B ∥ field` (R104). -/
def rmField (p : Prefixes) (f : BitVec 3) : BitVec 4 := extendReg p.rexB f

/-- The register of the SIB index field: `X ∥ index` (R104). -/
def indexField (p : Prefixes) (f : BitVec 3) : BitVec 4 := extendReg p.rexX f

/-- A displacement sign-extended to 64 bits (R109). -/
def disp16Value : Disp16 → Quad
  | .d0 => 0
  | .d8 d => d.signExtend 64
  | .d16 d => d.signExtend 64

/-- A displacement sign-extended to 64 bits (R110, R111). -/
def disp32Value : Disp32 → Quad
  | .d0 => 0
  | .d8 d => d.signExtend 64
  | .d32 d => d.signExtend 64

/-- The sum of registers and the default segment of a row of the table of R109: BX, BP, SI, DI are x[3], x[5], x[6], x[7]. -/
def State.sum16 (s : State) (rm : BitVec 3) : SegReg × Quad :=
  if rm = 0 then (.ds, s.x 3 + s.x 6)
  else if rm = 1 then (.ds, s.x 3 + s.x 7)
  else if rm = 2 then (.ss, s.x 5 + s.x 6)
  else if rm = 3 then (.ss, s.x 5 + s.x 7)
  else if rm = 4 then (.ds, s.x 6)
  else if rm = 5 then (.ds, s.x 7)
  else if rm = 6 then (.ss, s.x 5)
  else (.ds, s.x 3)

/-- The index term of a SIB form: none when `X ∥ index` is 4 (R111). -/
def State.indexTerm (s : State) (a : Width) (p : Prefixes) (scale : BitVec 2) (index : BitVec 3) : Quad :=
  if indexField p index = 4 then 0 else truncTo a (s.x (indexField p index)) <<< scale.toNat

/-- The default segment and the effective address of a memory form, of the address size in width and zero-extended (R109 to
R111, R113); `next` is the address of the next instruction, for the RIP-relative form. -/
def State.effectiveAddress (s : State) (p : Prefixes) (next : Quad) (m : MemForm) : SegReg × Quad :=
  let a := addressSize s.codeSize p
  match m with
  | .base16 rm d => ((s.sum16 rm).1, truncTo .b16 ((s.sum16 rm).2 + disp16Value d))
  | .abs16 d => (.ds, d.setWidth 64)
  | .base rm d =>
    (if rmField p rm = 5 then .ss else .ds, truncTo a (truncTo a (s.x (rmField p rm)) + disp32Value d))
  | .disp d => (.ds, if s.mode = .long64 then truncTo a (next + d.signExtend 64) else d.setWidth 64)
  | .sib scale index b d =>
    (if rmField p b = 4 ∨ rmField p b = 5 then .ss else .ds,
      truncTo a (truncTo a (s.x (rmField p b)) + s.indexTerm a p scale index + disp32Value d))
  | .sibNoBase scale index d => (.ds, truncTo a (s.indexTerm a p scale index + d.signExtend 64))

/-- The segment of a memory operand: the default, or the override; in 64-bit mode only FS and GS override (20_memory.md R65). -/
def State.segmentOf (s : State) (p : Prefixes) (dflt : SegReg) : SegReg :=
  match p.seg with
  | none => dflt
  | some g => if s.mode = .long64 ∧ g ≠ .fs ∧ g ≠ .gs then dflt else g

/-- The `(seg, ea)` of a memory form of the instruction `i`. -/
def State.memOperand (s : State) (i : Instr) (p : Prefixes) (m : MemForm) : SegReg × Quad :=
  let e := s.effectiveAddress p (s.pc + BitVec.ofNat 64 i.length) m
  (s.segmentOf p e.1, e.2)

/-- The `(seg, ea)` of a memory offset: unsigned, in DS unless overridden (R115, 20_memory.md R65). -/
def State.moffsOperand (s : State) (p : Prefixes) (o : Moffs) : SegReg × Quad :=
  (s.segmentOf p .ds,
    match o with
    | .o16 v => v.setWidth 64
    | .o32 v => v.setWidth 64
    | .o64 v => v)

/-- The value of an r/m operand of width `w` (R108). -/
def State.readRm (s : State) (i : Instr) (p : Prefixes) (w : Width) : Rm → Res Quad
  | .reg n => .ok (s.readReg p.rex.isSome w (rmField p n))
  | .mem m => s.memRead (s.memOperand i p m).1 (s.memOperand i p m).2 w.bytes

/-- The state with an r/m operand of width `w` written (R108). -/
def State.writeRm (s : State) (i : Instr) (p : Prefixes) (w : Width) (v : Quad) : Rm → Res State
  | .reg n => .ok (s.writeReg p.rex.isSome w (rmField p n) v)
  | .mem m => s.memWrite (s.memOperand i p m).1 (s.memOperand i p m).2 w.bytes v

end Sys2Proof.Machine
end

