-- ==== Sys2Proof/Machine/CrMoves.lean ====
section
/-! DEFINITION. The meanings of the 6 rows of 42_mov_cr.md: opcode 0F 20 reads a control register, opcode 0F 22 writes one. Serialization has
no effect of its own in program order (20_memory.md R80). -/

namespace Sys2Proof.Machine

/-! ## Shared operations -/

/-- The checks of every row, in the order of R234, and the control register named. -/
def crAccess (p : Prefixes) (n : BitVec 4) (s : State) : Res CtlReg := do
  s.guardV86
  guardLock p
  let c ← s.crOf n
  s.guardCpl0
  .ok c

/-- register ← control register; the status flags are left undefined (R214 to R216, R220). -/
def movRegCr (i : Instr) (p : Prefixes) (w : Width) (n : BitVec 4) (r : BitVec 3) (s : State) :
    Host.Outcome State Fault Refusal :=
  finish i s do
    let c ← crAccess p n s
    .ok (s.writeReg p.rex.isSome w (rmField p r) (s.cr c)).drawFlags

/-- control register ← register; the status flags are left undefined (R217 to R220). -/
def movCrReg (i : Instr) (p : Prefixes) (w : Width) (n : BitVec 4) (r : BitVec 3) (s : State) :
    Host.Outcome State Fault Refusal :=
  finish i s do
    let c ← crAccess p n s
    let t ← s.writeCr c (s.readReg p.rex.isSome w (rmField p r))
    .ok t.drawFlags

/-! ## Opcodes 0F 20 and 0F 22 -/

/-- `0F 20 /r, outside 64-bit mode` (R214); `cr# = R ∥ reg` (R212). `mod` is ignored (R213). -/
def execMovR32Cr (p : Prefixes) (mod : BitVec 2) (cr r : BitVec 3) (s : State) : Host.Outcome State Fault Refusal :=
  movRegCr (.movR32Cr p mod cr r) p .b32 (regField p cr) r s

/-- `0F 20 /r, 64-bit mode` (R215); `cr# = R ∥ reg` (R212). `mod` is ignored (R213). -/
def execMovR64Cr (p : Prefixes) (mod : BitVec 2) (cr r : BitVec 3) (s : State) : Host.Outcome State Fault Refusal :=
  movRegCr (.movR64Cr p mod cr r) p .b64 (regField p cr) r s

/-- `REX.R + 0F 20 /0` (R216): CR8. `mod` is ignored (R213). -/
def execMovR64Cr8 (p : Prefixes) (mod : BitVec 2) (r : BitVec 3) (s : State) : Host.Outcome State Fault Refusal :=
  movRegCr (.movR64Cr8 p mod r) p .b64 8 r s

/-- `0F 22 /r, outside 64-bit mode` (R217); `cr# = R ∥ reg` (R212). `mod` is ignored (R213). -/
def execMovCrR32 (p : Prefixes) (mod : BitVec 2) (cr r : BitVec 3) (s : State) : Host.Outcome State Fault Refusal :=
  movCrReg (.movCrR32 p mod cr r) p .b32 (regField p cr) r s

/-- `0F 22 /r, 64-bit mode` (R218); `cr# = R ∥ reg` (R212). `mod` is ignored (R213). -/
def execMovCrR64 (p : Prefixes) (mod : BitVec 2) (cr r : BitVec 3) (s : State) : Host.Outcome State Fault Refusal :=
  movCrReg (.movCrR64 p mod cr r) p .b64 (regField p cr) r s

/-- `REX.R + 0F 22 /0` (R219): CR8. `mod` is ignored (R213). -/
def execMovCr8R64 (p : Prefixes) (mod : BitVec 2) (r : BitVec 3) (s : State) : Host.Outcome State Fault Refusal :=
  movCrReg (.movCr8R64 p mod r) p .b64 8 r s

end Sys2Proof.Machine
end

