-- ==== Sys2Proof/Machine/DataMoves.lean ====
section
/-! DEFINITION. The meanings of the 30 rows of 40_mov_data.md: moves between general registers, immediates, memory and memory offsets. The
five shared operations read the source and every address register in the state before the instruction, then write one
destination (R175); #UD with LOCK comes first (R131, R170). -/

namespace Sys2Proof.Machine

/-! ## Shared operations -/

/-- r/m ← register (class MR, R105). -/
def movRmReg (i : Instr) (p : Prefixes) (w : Width) (rm : Rm) (reg : BitVec 3) (s : State) :
    Host.Outcome State Fault Refusal :=
  finish i s do
    guardLock p
    s.writeRm i p w (s.readReg p.rex.isSome w (regField p reg)) rm

/-- register ← r/m (class RM, R105). -/
def movRegRm (i : Instr) (p : Prefixes) (w : Width) (reg : BitVec 3) (rm : Rm) (s : State) :
    Host.Outcome State Fault Refusal :=
  finish i s do
    guardLock p
    let v ← s.readRm i p w rm
    .ok (s.writeReg p.rex.isSome w (regField p reg) v)

/-- AL, AX, EAX or RAX ← memory offset (class FD, R106). -/
def movAccMoffs (i : Instr) (p : Prefixes) (w : Width) (o : Moffs) (s : State) : Host.Outcome State Fault Refusal :=
  finish i s do
    guardLock p
    let v ← s.memRead (s.moffsOperand p o).1 (s.moffsOperand p o).2 w.bytes
    .ok (s.writeReg p.rex.isSome w 0 v)

/-- memory offset ← AL, AX, EAX or RAX (class TD, R106). -/
def movMoffsAcc (i : Instr) (p : Prefixes) (w : Width) (o : Moffs) (s : State) : Host.Outcome State Fault Refusal :=
  finish i s do
    guardLock p
    s.memWrite (s.moffsOperand p o).1 (s.moffsOperand p o).2 w.bytes (s.readReg p.rex.isSome w 0)

/-- register of the opcode's low bits ← immediate (class OI, R106). -/
def movPlusImm (i : Instr) (p : Prefixes) (w : Width) (r : BitVec 3) (v : Quad) (s : State) :
    Host.Outcome State Fault Refusal :=
  finish i s do
    guardLock p
    .ok (s.writeReg p.rex.isSome w (rmField p r) v)

/-- r/m ← immediate (class MI, R105). -/
def movRmImmediate (i : Instr) (p : Prefixes) (w : Width) (rm : Rm) (v : Quad) (s : State) :
    Host.Outcome State Fault Refusal :=
  finish i s do
    guardLock p
    s.writeRm i p w v rm

/-! ## Opcodes 88 to 8B -/

/-- `88 /r` (R140). -/
def execMovRm8R8 (p : Prefixes) (rm : Rm) (reg : BitVec 3) (s : State) : Host.Outcome State Fault Refusal :=
  movRmReg (.movRm8R8 p rm reg) p .b8 rm reg s

/-- `REX + 88 /r` (R141). -/
def execMovRm8R8Rex (p : Prefixes) (rm : Rm) (reg : BitVec 3) (s : State) : Host.Outcome State Fault Refusal :=
  movRmReg (.movRm8R8Rex p rm reg) p .b8 rm reg s

/-- `89 /r, osz = 16` (R142). -/
def execMovRm16R16 (p : Prefixes) (rm : Rm) (reg : BitVec 3) (s : State) : Host.Outcome State Fault Refusal :=
  movRmReg (.movRm16R16 p rm reg) p .b16 rm reg s

/-- `89 /r, osz = 32` (R143). -/
def execMovRm32R32 (p : Prefixes) (rm : Rm) (reg : BitVec 3) (s : State) : Host.Outcome State Fault Refusal :=
  movRmReg (.movRm32R32 p rm reg) p .b32 rm reg s

/-- `REX.W + 89 /r` (R144). -/
def execMovRm64R64 (p : Prefixes) (rm : Rm) (reg : BitVec 3) (s : State) : Host.Outcome State Fault Refusal :=
  movRmReg (.movRm64R64 p rm reg) p .b64 rm reg s

/-- `8A /r` (R145). -/
def execMovR8Rm8 (p : Prefixes) (reg : BitVec 3) (rm : Rm) (s : State) : Host.Outcome State Fault Refusal :=
  movRegRm (.movR8Rm8 p reg rm) p .b8 reg rm s

/-- `REX + 8A /r` (R146). -/
def execMovR8Rm8Rex (p : Prefixes) (reg : BitVec 3) (rm : Rm) (s : State) : Host.Outcome State Fault Refusal :=
  movRegRm (.movR8Rm8Rex p reg rm) p .b8 reg rm s

/-- `8B /r, osz = 16` (R147). -/
def execMovR16Rm16 (p : Prefixes) (reg : BitVec 3) (rm : Rm) (s : State) : Host.Outcome State Fault Refusal :=
  movRegRm (.movR16Rm16 p reg rm) p .b16 reg rm s

/-- `8B /r, osz = 32` (R148). -/
def execMovR32Rm32 (p : Prefixes) (reg : BitVec 3) (rm : Rm) (s : State) : Host.Outcome State Fault Refusal :=
  movRegRm (.movR32Rm32 p reg rm) p .b32 reg rm s

/-- `REX.W + 8B /r` (R149). -/
def execMovR64Rm64 (p : Prefixes) (reg : BitVec 3) (rm : Rm) (s : State) : Host.Outcome State Fault Refusal :=
  movRegRm (.movR64Rm64 p reg rm) p .b64 reg rm s

/-! ## Opcodes A0 to A3 -/

/-- `A0` (R150). -/
def execMovAlMoffs8 (p : Prefixes) (o : Moffs) (s : State) : Host.Outcome State Fault Refusal :=
  movAccMoffs (.movAlMoffs8 p o) p .b8 o s

/-- `REX.W + A0` (R151). -/
def execMovAlMoffs8RexW (p : Prefixes) (o : Moffs) (s : State) : Host.Outcome State Fault Refusal :=
  movAccMoffs (.movAlMoffs8RexW p o) p .b8 o s

/-- `A1, osz = 16` (R152). -/
def execMovAxMoffs16 (p : Prefixes) (o : Moffs) (s : State) : Host.Outcome State Fault Refusal :=
  movAccMoffs (.movAxMoffs16 p o) p .b16 o s

/-- `A1, osz = 32` (R153). -/
def execMovEaxMoffs32 (p : Prefixes) (o : Moffs) (s : State) : Host.Outcome State Fault Refusal :=
  movAccMoffs (.movEaxMoffs32 p o) p .b32 o s

/-- `REX.W + A1` (R154). -/
def execMovRaxMoffs64 (p : Prefixes) (o : Moffs) (s : State) : Host.Outcome State Fault Refusal :=
  movAccMoffs (.movRaxMoffs64 p o) p .b64 o s

/-- `A2` (R155). -/
def execMovMoffs8Al (p : Prefixes) (o : Moffs) (s : State) : Host.Outcome State Fault Refusal :=
  movMoffsAcc (.movMoffs8Al p o) p .b8 o s

/-- `REX.W + A2` (R156). -/
def execMovMoffs8AlRexW (p : Prefixes) (o : Moffs) (s : State) : Host.Outcome State Fault Refusal :=
  movMoffsAcc (.movMoffs8AlRexW p o) p .b8 o s

/-- `A3, osz = 16` (R157). -/
def execMovMoffs16Ax (p : Prefixes) (o : Moffs) (s : State) : Host.Outcome State Fault Refusal :=
  movMoffsAcc (.movMoffs16Ax p o) p .b16 o s

/-- `A3, osz = 32` (R158). -/
def execMovMoffs32Eax (p : Prefixes) (o : Moffs) (s : State) : Host.Outcome State Fault Refusal :=
  movMoffsAcc (.movMoffs32Eax p o) p .b32 o s

/-- `REX.W + A3` (R159). -/
def execMovMoffs64Rax (p : Prefixes) (o : Moffs) (s : State) : Host.Outcome State Fault Refusal :=
  movMoffsAcc (.movMoffs64Rax p o) p .b64 o s

/-! ## Opcodes B0 to BF -/

/-- `B0+rb ib` (R160). -/
def execMovR8Imm8 (p : Prefixes) (r : BitVec 3) (imm : BitVec 8) (s : State) : Host.Outcome State Fault Refusal :=
  movPlusImm (.movR8Imm8 p r imm) p .b8 r (imm.setWidth 64) s

/-- `REX + B0+rb ib` (R161). -/
def execMovR8Imm8Rex (p : Prefixes) (r : BitVec 3) (imm : BitVec 8) (s : State) : Host.Outcome State Fault Refusal :=
  movPlusImm (.movR8Imm8Rex p r imm) p .b8 r (imm.setWidth 64) s

/-- `B8+rw iw` (R162). -/
def execMovR16Imm16 (p : Prefixes) (r : BitVec 3) (imm : BitVec 16) (s : State) : Host.Outcome State Fault Refusal :=
  movPlusImm (.movR16Imm16 p r imm) p .b16 r (imm.setWidth 64) s

/-- `B8+rd id` (R163). -/
def execMovR32Imm32 (p : Prefixes) (r : BitVec 3) (imm : BitVec 32) (s : State) : Host.Outcome State Fault Refusal :=
  movPlusImm (.movR32Imm32 p r imm) p .b32 r (imm.setWidth 64) s

/-- `REX.W + B8+rd io` (R164). -/
def execMovR64Imm64 (p : Prefixes) (r : BitVec 3) (imm : BitVec 64) (s : State) : Host.Outcome State Fault Refusal :=
  movPlusImm (.movR64Imm64 p r imm) p .b64 r imm s

/-! ## Opcodes C6 /0, C7 /0 -/

/-- `C6 /0 ib` (R165). -/
def execMovRm8Imm8 (p : Prefixes) (rm : Rm) (imm : BitVec 8) (s : State) : Host.Outcome State Fault Refusal :=
  movRmImmediate (.movRm8Imm8 p rm imm) p .b8 rm (imm.setWidth 64) s

/-- `REX + C6 /0 ib` (R166). -/
def execMovRm8Imm8Rex (p : Prefixes) (rm : Rm) (imm : BitVec 8) (s : State) : Host.Outcome State Fault Refusal :=
  movRmImmediate (.movRm8Imm8Rex p rm imm) p .b8 rm (imm.setWidth 64) s

/-- `C7 /0 iw` (R167). -/
def execMovRm16Imm16 (p : Prefixes) (rm : Rm) (imm : BitVec 16) (s : State) : Host.Outcome State Fault Refusal :=
  movRmImmediate (.movRm16Imm16 p rm imm) p .b16 rm (imm.setWidth 64) s

/-- `C7 /0 id` (R168). -/
def execMovRm32Imm32 (p : Prefixes) (rm : Rm) (imm : BitVec 32) (s : State) : Host.Outcome State Fault Refusal :=
  movRmImmediate (.movRm32Imm32 p rm imm) p .b32 rm (imm.setWidth 64) s

/-- `REX.W + C7 /0 id`, the immediate sign-extended to 64 bits (R169). -/
def execMovRm64Imm32 (p : Prefixes) (rm : Rm) (imm : BitVec 32) (s : State) : Host.Outcome State Fault Refusal :=
  movRmImmediate (.movRm64Imm32 p rm imm) p .b64 rm (imm.signExtend 64) s

end Sys2Proof.Machine
end

