-- ==== Sys2Proof/Machine/DebugRegs.lean ====
section
/-! DEFINITION. The debug registers and the checks of an access (43_mov_dr.md R252, R257, R259 to R263). -/

namespace Sys2Proof.Machine

/-- The debug registers that hold state (10_state.md R47). -/
inductive DbgReg where
  | dr0 | dr1 | dr2 | dr3 | dr6 | dr7
  deriving DecidableEq, Repr

/-- `target(dr#)`: DR4 and DR5 are DR6 and DR7, or #UD when CR4.DE is 1; #UD with REX.R (R252). -/
def State.drOf (s : State) (p : Prefixes) (n : BitVec 3) : Res DbgReg :=
  if p.rexR then .error (.exc .ud)
  else if n = 0 then .ok .dr0
  else if n = 1 then .ok .dr1
  else if n = 2 then .ok .dr2
  else if n = 3 then .ok .dr3
  else if (n = 4 ∨ n = 5) ∧ s.debugExtensions then .error (.exc .ud)
  else if n = 4 ∨ n = 6 then .ok .dr6
  else .ok .dr7

/-- `DR[t]` (R262). -/
def State.dr (s : State) : DbgReg → Quad
  | .dr0 => s.dr0
  | .dr1 => s.dr1
  | .dr2 => s.dr2
  | .dr3 => s.dr3
  | .dr6 => s.dr6
  | .dr7 => s.dr7

/-- General detect: #DB for any access while DR7.GD is 1 (R259, R260). -/
def State.guardDetect (s : State) : Res Unit := if dr7GD s.dr7 then .error (.exc .db) else .ok ()

/-- The value a register with fixed bits takes (R261; entry 21). -/
def FixedBits.apply (f : FixedBits) (v : Quad) : Quad := (v &&& ~~~f.mask) ||| f.value

/-- `WriteDR(t, v)` (R261). -/
def State.writeDr (s : State) (t : DbgReg) (v : Quad) : State :=
  match t with
  | .dr0 => { s with dr0 := v }
  | .dr1 => { s with dr1 := v }
  | .dr2 => { s with dr2 := v }
  | .dr3 => { s with dr3 := v }
  | .dr6 => { s with dr6 := FixedBits.apply s.cfg.dr6Fixed v }
  | .dr7 => { s with dr7 := FixedBits.apply s.cfg.dr7Fixed v }

/-- `WriteDR` of a 64-bit source: #GP(0) for a 1 in bits 63:32 of DR6 or DR7 (R257). -/
def State.writeDr64 (s : State) (t : DbgReg) (v : Quad) : Res State :=
  if (t = .dr6 ∨ t = .dr7) ∧ v.extractLsb' 32 32 ≠ 0 then .error (.exc (.gp 0)) else .ok (s.writeDr t v)

/-- Whether DR7 arms a breakpoint: one of L0 to L3, G0 to G3, bits 7:0 (10_state.md R48, R263). -/
def State.armed (s : State) : Bool := s.dr7.extractLsb' 0 8 != 0

end Sys2Proof.Machine
end

