-- ==== Sys2Proof/Machine/DrMoves.lean ====
section
/-! DEFINITION. The meanings of the 4 rows of 43_mov_dr.md: opcode 0F 21 reads a debug register, opcode 0F 23 writes one. -/

namespace Sys2Proof.Machine

/-! ## Shared operations -/

/-- The checks of every row, in the order of R260, and the debug register named. -/
def drAccess (p : Prefixes) (n : BitVec 3) (s : State) : Res DbgReg := do
  s.guardV86
  guardLock p
  let t ← s.drOf p n
  s.guardCpl0
  s.guardDetect
  .ok t

/-- register ← debug register; the status flags are left undefined (R254, R255, R258). -/
def movRegDr (i : Instr) (p : Prefixes) (w : Width) (n r : BitVec 3) (s : State) : Host.Outcome State Fault Refusal :=
  finish i s do
    let d ← drAccess p n s
    .ok (s.writeReg p.rex.isSome w (rmField p r) (s.dr d)).drawFlags

/-! ## Opcodes 0F 21 and 0F 23 -/

/-- `0F 21 /r, outside 64-bit mode` (R254). `mod` is ignored (R253). -/
def execMovR32Dr (p : Prefixes) (mod : BitVec 2) (dr r : BitVec 3) (s : State) : Host.Outcome State Fault Refusal :=
  movRegDr (.movR32Dr p mod dr r) p .b32 dr r s

/-- `0F 21 /r, 64-bit mode` (R255). `mod` is ignored (R253). -/
def execMovR64Dr (p : Prefixes) (mod : BitVec 2) (dr r : BitVec 3) (s : State) : Host.Outcome State Fault Refusal :=
  movRegDr (.movR64Dr p mod dr r) p .b64 dr r s

/-- `0F 23 /r, outside 64-bit mode`, the source zero-extended (R256). `mod` is ignored (R253). -/
def execMovDrR32 (p : Prefixes) (mod : BitVec 2) (dr r : BitVec 3) (s : State) : Host.Outcome State Fault Refusal :=
  finish (.movDrR32 p mod dr r) s do
    let d ← drAccess p dr s
    .ok (s.writeDr d (s.readReg p.rex.isSome .b32 (rmField p r))).drawFlags

/-- `0F 23 /r, 64-bit mode` (R257). `mod` is ignored (R253). -/
def execMovDrR64 (p : Prefixes) (mod : BitVec 2) (dr r : BitVec 3) (s : State) : Host.Outcome State Fault Refusal :=
  finish (.movDrR64 p mod dr r) s do
    let d ← drAccess p dr s
    let t ← s.writeDr64 d (s.readReg p.rex.isSome .b64 (rmField p r))
    .ok t.drawFlags

end Sys2Proof.Machine
end

