-- ==== Sys2Proof/Machine/Segments.lean ====
section
/-! DEFINITION. Fetching a descriptor and loading a segment register (41_mov_sreg.md R186 to R193, R196 to R198). -/

namespace Sys2Proof.Machine

/-- `IsNull(sel)`: one of the values 0000 to 0003 (10_state.md R32). -/
def isNull (sel : Selector) : Bool := sel.extractLsb' 2 14 == 0

/-- The RPL of a selector (10_state.md R32). -/
def rpl (sel : Selector) : BitVec 2 := sel.extractLsb' 0 2

/-! ## The descriptor tables in memory (R187's instance; entry 10) -/

/-- The descriptor that an 8-byte table entry holds (R187). -/
def descriptorOf (e : Quad) : Descriptor where
  kind :=
    if e.getLsbD 44 then
      if e.getLsbD 43 then .code (e.getLsbD 41) (e.getLsbD 42) else .data (e.getLsbD 41) (e.getLsbD 42)
    else .system
  dpl := e.extractLsb' 45 2
  present := e.getLsbD 47
  base := (e.extractLsb' 56 8 ++ e.extractLsb' 16 24).setWidth 64
  limit :=
    if e.getLsbD 55 then e.extractLsb' 48 4 ++ e.extractLsb' 0 16 ++ (0xFFF : BitVec 12)
    else (e.extractLsb' 48 4 ++ e.extractLsb' 0 16).setWidth 32
  big := e.getLsbD 54
  long := e.getLsbD 53

/-- The base and the limit of the table that a selector names: the LDT when bit 2 is set, else the GDT (R32, R187). -/
def State.tableOf (s : State) (sel : Selector) : Quad × Nat :=
  if sel.getLsbD 2 then (s.ldtr.base, s.ldtr.limit.toNat) else (s.gdtr.base, s.gdtr.limit.toNat)

/-- The offset of a selector's entry in its table (R187). -/
def entryOffset (sel : Selector) : Nat := 8 * (sel.extractLsb' 3 13).toNat

/-- The linear address of byte `k` of a selector's entry (R187): 64 bits in IA-32e mode, 32 elsewhere. -/
def State.entryByte (s : State) (sel : Selector) (k : Nat) : Quad :=
  let la := (s.tableOf sel).1 + BitVec.ofNat 64 (entryOffset sel + k)
  if s.ia32e then la else truncTo .b32 la

/-- What setting the accessed bit (bit 40 of the entry) does (R188). -/
def State.markAccessed (s : State) (sel : Selector) (e : Quad) : AccessedUpdate :=
  if e.getLsbD 40 then .store []
  else
    match s.translate (s.entryByte sel 5) { type := .write, user := false } with
    | .phys pa => if s.backed pa.toNat then .store [(pa.toNat, e.extractLsb' 40 8 ||| 1)] else .unbacked
    | .pageFault c => .pageFault c (s.entryByte sel 5)

/-- `FetchDescriptor` from the GDT or LDT in memory (R187). Where several of the entry's 8 bytes fault in translation the lowest is reported,
as in `State.physical` (DESIGN CHOICE, entry 25: unsafe). -/
def State.tableDescriptor (s : State) (sel : Selector) : DescriptorResult :=
  if (s.tableOf sel).2 < entryOffset sel + 7 ∨ (sel.getLsbD 2 ∧ isNull s.ldtr.sel) then .outsideLimits
  else if s.mode = .long64 ∧ ¬ ((List.range 8).all fun k => s.canonical (s.entryByte sel k)) then .noncanonical
  else
    match s.physical { type := .read, user := false } ((List.range 8).map (s.entryByte sel)) with
    | .ok pas =>
      if pas.all s.backed then .desc (descriptorOf (s.loadAt pas)) (s.markAccessed sel (s.loadAt pas)) else .unbacked
    | .error (.exc (.pf c la)) => .pageFault c la
    | .error _ => .unbacked

/-- `FetchDescriptor(s, sel)` (R187): the oracle or the tables in memory, as the parameter says. -/
def State.fetchDescriptor (s : State) (sel : Selector) : DescriptorResult :=
  match s.cfg.descriptorSource with
  | .oracle => Config.fetchDescriptor s sel
  | .table => s.tableDescriptor sel

/-! ## LoadSreg -/

/-- In real-address and virtual-8086 mode: the selector and 16 times it as the base, nothing checked (R189). -/
def State.loadSegReal (s : State) (g : SegReg) (sel : Selector) : State :=
  s.setSeg g
    { sel := sel
      hidden := { null := false, d := { (s.seg g).hidden.d with base := (sel.setWidth 64) <<< 4 } } }

/-- Loading a NULL selector elsewhere (R190, R192, R193). The hidden part is a free value but for `null` (U5, D26). -/
def State.loadSegNull (s : State) (g : SegReg) (sel : Selector) : Res State :=
  if g = .ss ∧ (s.mode ≠ .long64 ∨ s.privilege = 3 ∨ rpl sel ≠ s.privilege) then .error (.exc (.gp 0))
  else .ok (s.setSeg g { sel := sel, hidden := { null := true, d := Config.freeDescriptor s.draws } })

/-- The checks on SS (R190): RPL, a writable data segment, DPL; then presence. -/
def State.checkSs (s : State) (sel : Selector) (d : Descriptor) : Res Unit :=
  if rpl sel ≠ s.privilege ∨ ¬ segWritable d.kind ∨ d.dpl ≠ s.privilege then .error (.exc (.gp (selectorCode sel)))
  else if ¬ d.present then .error (.exc (.ss (selectorCode sel)))
  else .ok ()

/-- A data or a nonconforming code segment (R191). -/
def privilegeMatters : SegKind → Bool
  | .data _ _ => true
  | .code _ conforming => !conforming
  | .system => false

/-- The checks on DS, ES, FS, GS (R191): a data or readable code segment, the privilege levels; then presence. -/
def State.checkData (s : State) (sel : Selector) (d : Descriptor) : Res Unit :=
  if ¬ segReadable d.kind ∨ (privilegeMatters d.kind ∧ (d.dpl < rpl sel ∨ d.dpl < s.privilege)) then
    .error (.exc (.gp (selectorCode sel)))
  else if ¬ d.present then .error (.exc (.np (selectorCode sel)))
  else .ok ()

/-- The checks on the descriptor (R190, R191). -/
def State.checkLoad (s : State) (g : SegReg) (sel : Selector) (d : Descriptor) : Res Unit :=
  if g = .ss then s.checkSs sel d else s.checkData sel d

/-- The state with the accessed bit of the loaded descriptor set (R188). The cells are written as `FetchDescriptor` answers them:
`State.markAccessed` has asked whether its cell is backed, and the oracle's cells are not asked. R76 refuses an access without ordinary
memory and R188 lets the oracle return the updated memory, without a word on the two together: DESIGN CHOICE (entry 10), unsafe. -/
def State.setAccessed (s : State) : AccessedUpdate → Res State
  | .store cells => .ok { s with mem := Memory.writeAll s.mem cells }
  | .pageFault c la => .error (.exc (.pf c la))
  | .unbacked => .error (.refuse .unbackedMemory)

/-- Loading a non-NULL selector in protected, compatibility and 64-bit mode (R190, R191, R193). -/
def State.loadSegDescriptor (s : State) (g : SegReg) (sel : Selector) : Res State :=
  match s.fetchDescriptor sel with
  | .outsideLimits | .noncanonical => .error (.exc (.gp (selectorCode sel)))
  | .pageFault c la => .error (.exc (.pf c la))
  | .unbacked => .error (.refuse .unbackedMemory)
  | .desc d accessed => do
    s.checkLoad g sel d
    let t ← s.setAccessed accessed
    .ok (t.setSeg g { sel := sel, hidden := { null := false, d := d } })

/-- `LoadSreg(g, sel)` (R189 to R193). -/
def State.loadSeg (s : State) (g : SegReg) (sel : Selector) : Res State :=
  if s.mode = .real ∨ s.mode = .v86 then .ok (s.loadSegReal g sel)
  else if isNull sel then s.loadSegNull g sel
  else s.loadSegDescriptor g sel

end Sys2Proof.Machine
end

