-- ==== Sys2Proof/Machine/SregMoves.lean ====
section
/-! DEFINITION. The meanings of the 5 rows of 41_mov_sreg.md: opcode 8C stores a selector, opcode 8E loads a segment register. -/

namespace Sys2Proof.Machine

/-! ## Shared operations -/

/-- The segment register of a ModR/M reg field; #UD for 6 and 7 (30_encoding.md R130, D13; entry 15). -/
def sregOf (f : BitVec 3) : Res SegReg :=
  match segOfCode f with
  | some g => .ok g
  | none => .error (.exc .ud)

/-- The segment register that 8E may load: #UD for CS (R184). -/
def loadableSreg (f : BitVec 3) : Res SegReg :=
  match segOfCode f with
  | some .cs | none => .error (.exc .ud)
  | some g => .ok g

/-- The value that a register destination of width `w` receives: the selector zero-extended, with bits 31:16 of a 32-bit destination a
free value on the parts that leave them undefined (R182, U2, D16). -/
def State.selectorValue (s : State) (w : Width) (g : SegReg) : Quad :=
  if w = .b32 ∧ s.cfg.sregUpperUndefined ∧ ¬ s.cfg.arch64 then
    (Config.freeSregUpper s.draws ++ (s.seg g).sel).setWidth 64
  else (s.seg g).sel.setWidth 64

/-- r/m ← selector: a register of the operand size, or 2 bytes of memory whatever the operand size (R180). -/
def movRmSreg (i : Instr) (p : Prefixes) (w : Width) (rm : Rm) (sreg : BitVec 3) (s : State) :
    Host.Outcome State Fault Refusal :=
  finish i s do
    guardLock p
    let g ← sregOf sreg
    match rm with
    | .reg _ => s.writeRm i p w (s.selectorValue w g) rm
    | .mem _ => s.writeRm i p .b16 ((s.seg g).sel.setWidth 64) rm

/-- segment register ← the 16 bits of r/m: the register loaded, and the state with it loaded. A memory source is 2 bytes (D8). The order of
the checks is R197's. -/
def loadSreg (i : Instr) (p : Prefixes) (sreg : BitVec 3) (rm : Rm) (s : State) : Res (SegReg × State) := do
  guardLock p
  let g ← loadableSreg sreg
  let v ← s.readRm i p .b16 rm
  let t ← s.loadSeg g (v.setWidth 16)
  .ok (g, t)

/-- segment register ← r/m, and the inhibition after a load of SS (R184, R200). -/
def movSregRm (i : Instr) (p : Prefixes) (sreg : BitVec 3) (rm : Rm) (s : State) : Host.Outcome State Fault Refusal :=
  match loadSreg i p sreg rm s with
  | .ok (g, t) => .next (retire i s t (if g = .ss then s.shadowAfterSs else false) (decide (g = .ss)))
  | .error e => s.stop e

/-! ## Opcodes 8C and 8E -/

/-- `8C /r, osz = 16` (R181). -/
def execMovRm16Sreg (p : Prefixes) (rm : Rm) (sreg : BitVec 3) (s : State) : Host.Outcome State Fault Refusal :=
  movRmSreg (.movRm16Sreg p rm sreg) p .b16 rm sreg s

/-- `8C /r, osz = 32` (R182, C2). -/
def execMovRm32Sreg (p : Prefixes) (rm : Rm) (sreg : BitVec 3) (s : State) : Host.Outcome State Fault Refusal :=
  movRmSreg (.movRm32Sreg p rm sreg) p .b32 rm sreg s

/-- `REX.W + 8C /r` (R183). -/
def execMovRm64Sreg (p : Prefixes) (rm : Rm) (sreg : BitVec 3) (s : State) : Host.Outcome State Fault Refusal :=
  movRmSreg (.movRm64Sreg p rm sreg) p .b64 rm sreg s

/-- `8E /r` (R184). -/
def execMovSregRm16 (p : Prefixes) (sreg : BitVec 3) (rm : Rm) (s : State) : Host.Outcome State Fault Refusal :=
  movSregRm (.movSregRm16 p sreg rm) p sreg rm s

/-- `REX.W + 8E /r`: the lower 16 bits of r/m64 (R185). -/
def execMovSregRm64 (p : Prefixes) (sreg : BitVec 3) (rm : Rm) (s : State) : Host.Outcome State Fault Refusal :=
  movSregRm (.movSregRm64 p sreg rm) p sreg rm s

end Sys2Proof.Machine
end

