-- ==== Sys2Proof/Machine/Dispatch.lean ====
section
/-! DEFINITION. The meaning of each instruction, one arm per constructor. -/

namespace Sys2Proof.Machine

/-- What an instruction does to a state. -/
def exec (i : Instr) (s : State) : Host.Outcome State Fault Refusal :=
  match i with
  | .movRm8R8 p rm reg => Sys2Proof.Machine.execMovRm8R8 p rm reg s
  | .movRm8R8Rex p rm reg => Sys2Proof.Machine.execMovRm8R8Rex p rm reg s
  | .movRm16R16 p rm reg => Sys2Proof.Machine.execMovRm16R16 p rm reg s
  | .movRm32R32 p rm reg => Sys2Proof.Machine.execMovRm32R32 p rm reg s
  | .movRm64R64 p rm reg => Sys2Proof.Machine.execMovRm64R64 p rm reg s
  | .movR8Rm8 p reg rm => Sys2Proof.Machine.execMovR8Rm8 p reg rm s
  | .movR8Rm8Rex p reg rm => Sys2Proof.Machine.execMovR8Rm8Rex p reg rm s
  | .movR16Rm16 p reg rm => Sys2Proof.Machine.execMovR16Rm16 p reg rm s
  | .movR32Rm32 p reg rm => Sys2Proof.Machine.execMovR32Rm32 p reg rm s
  | .movR64Rm64 p reg rm => Sys2Proof.Machine.execMovR64Rm64 p reg rm s
  | .movRm16Sreg p rm sreg => Sys2Proof.Machine.execMovRm16Sreg p rm sreg s
  | .movRm32Sreg p rm sreg => Sys2Proof.Machine.execMovRm32Sreg p rm sreg s
  | .movRm64Sreg p rm sreg => Sys2Proof.Machine.execMovRm64Sreg p rm sreg s
  | .movSregRm16 p sreg rm => Sys2Proof.Machine.execMovSregRm16 p sreg rm s
  | .movSregRm64 p sreg rm => Sys2Proof.Machine.execMovSregRm64 p sreg rm s
  | .movAlMoffs8 p o => Sys2Proof.Machine.execMovAlMoffs8 p o s
  | .movAlMoffs8RexW p o => Sys2Proof.Machine.execMovAlMoffs8RexW p o s
  | .movAxMoffs16 p o => Sys2Proof.Machine.execMovAxMoffs16 p o s
  | .movEaxMoffs32 p o => Sys2Proof.Machine.execMovEaxMoffs32 p o s
  | .movRaxMoffs64 p o => Sys2Proof.Machine.execMovRaxMoffs64 p o s
  | .movMoffs8Al p o => Sys2Proof.Machine.execMovMoffs8Al p o s
  | .movMoffs8AlRexW p o => Sys2Proof.Machine.execMovMoffs8AlRexW p o s
  | .movMoffs16Ax p o => Sys2Proof.Machine.execMovMoffs16Ax p o s
  | .movMoffs32Eax p o => Sys2Proof.Machine.execMovMoffs32Eax p o s
  | .movMoffs64Rax p o => Sys2Proof.Machine.execMovMoffs64Rax p o s
  | .movR8Imm8 p r imm => Sys2Proof.Machine.execMovR8Imm8 p r imm s
  | .movR8Imm8Rex p r imm => Sys2Proof.Machine.execMovR8Imm8Rex p r imm s
  | .movR16Imm16 p r imm => Sys2Proof.Machine.execMovR16Imm16 p r imm s
  | .movR32Imm32 p r imm => Sys2Proof.Machine.execMovR32Imm32 p r imm s
  | .movR64Imm64 p r imm => Sys2Proof.Machine.execMovR64Imm64 p r imm s
  | .movRm8Imm8 p rm imm => Sys2Proof.Machine.execMovRm8Imm8 p rm imm s
  | .movRm8Imm8Rex p rm imm => Sys2Proof.Machine.execMovRm8Imm8Rex p rm imm s
  | .movRm16Imm16 p rm imm => Sys2Proof.Machine.execMovRm16Imm16 p rm imm s
  | .movRm32Imm32 p rm imm => Sys2Proof.Machine.execMovRm32Imm32 p rm imm s
  | .movRm64Imm32 p rm imm => Sys2Proof.Machine.execMovRm64Imm32 p rm imm s
  | .movR32Cr p mod cr r => Sys2Proof.Machine.execMovR32Cr p mod cr r s
  | .movR64Cr p mod cr r => Sys2Proof.Machine.execMovR64Cr p mod cr r s
  | .movR64Cr8 p mod r => Sys2Proof.Machine.execMovR64Cr8 p mod r s
  | .movCrR32 p mod cr r => Sys2Proof.Machine.execMovCrR32 p mod cr r s
  | .movCrR64 p mod cr r => Sys2Proof.Machine.execMovCrR64 p mod cr r s
  | .movCr8R64 p mod r => Sys2Proof.Machine.execMovCr8R64 p mod r s
  | .movR32Dr p mod dr r => Sys2Proof.Machine.execMovR32Dr p mod dr r s
  | .movR64Dr p mod dr r => Sys2Proof.Machine.execMovR64Dr p mod dr r s
  | .movDrR32 p mod dr r => Sys2Proof.Machine.execMovDrR32 p mod dr r s
  | .movDrR64 p mod dr r => Sys2Proof.Machine.execMovDrR64 p mod dr r s

end Sys2Proof.Machine
end

