-- ==== Sys2Proof/WellFormed.lean ====
section
/-! DEFINITION. Which terms of `Instr` stand for an encoding in a given code size: the rows' own conditions (30_encoding.md R116,
R117, R119) and the byte forms that mean something else (R109 to R111). -/

namespace Sys2Proof

/-- A REX prefix exists in 64-bit mode only (R99, R121). -/
def Prefixes.wf (c : CodeSize) (p : Prefixes) : Bool := p.rex.isNone || c == .c64

/-- The memory form belongs to the address size `a`, and is not the encoding of another form (R109 to R111). -/
def MemForm.wf (a : Width) : MemForm → Bool
  | .base16 rm d => a == .b16 && !(rm == 6 && d == .d0)
  | .abs16 _ => a == .b16
  | .base rm d => a != .b16 && rm != 4 && !(rm == 5 && d == .d0)
  | .disp _ => a != .b16
  | .sib _ _ b d => a != .b16 && !(b == 5 && d == .d0)
  | .sibNoBase _ _ _ => a != .b16

/-- An r/m operand is well formed when its memory form is. -/
def Rm.wf (a : Width) : Rm → Bool
  | .reg _ => true
  | .mem m => m.wf a

/-- The offset is as wide as the address size (R115). -/
def Moffs.wf (a : Width) : Moffs → Bool
  | .o16 _ => a == .b16
  | .o32 _ => a == .b32
  | .o64 _ => a == .b64

/-- The column "sel" of R116 and the mode column of R117: the conditions that select the row. -/
def Instr.rowWf (c : CodeSize) : Instr → Bool
  | .movRm8R8 p rm _ | .movR8Rm8 p _ rm | .movRm8Imm8 p rm _ => p.rex.isNone && rm.wf (addressSize c p)
  | .movRm8R8Rex p rm _ | .movR8Rm8Rex p _ rm | .movRm8Imm8Rex p rm _ => p.rex.isSome && rm.wf (addressSize c p)
  | .movRm16R16 p rm _ | .movR16Rm16 p _ rm | .movRm16Sreg p rm _ | .movRm16Imm16 p rm _ =>
    operandSize c p == .b16 && rm.wf (addressSize c p)
  | .movRm32R32 p rm _ | .movR32Rm32 p _ rm | .movRm32Sreg p rm _ | .movRm32Imm32 p rm _ =>
    operandSize c p == .b32 && rm.wf (addressSize c p)
  | .movRm64R64 p rm _ | .movR64Rm64 p _ rm | .movRm64Sreg p rm _ | .movRm64Imm32 p rm _ =>
    operandSize c p == .b64 && rm.wf (addressSize c p)
  | .movSregRm16 p _ rm => !p.rexW && rm.wf (addressSize c p)
  | .movSregRm64 p _ rm => p.rexW && rm.wf (addressSize c p)
  | .movAlMoffs8 p o | .movMoffs8Al p o => !p.rexW && o.wf (addressSize c p)
  | .movAlMoffs8RexW p o | .movMoffs8AlRexW p o => p.rexW && o.wf (addressSize c p)
  | .movAxMoffs16 p o | .movMoffs16Ax p o => operandSize c p == .b16 && o.wf (addressSize c p)
  | .movEaxMoffs32 p o | .movMoffs32Eax p o => operandSize c p == .b32 && o.wf (addressSize c p)
  | .movRaxMoffs64 p o | .movMoffs64Rax p o => operandSize c p == .b64 && o.wf (addressSize c p)
  | .movR8Imm8 p _ _ => p.rex.isNone
  | .movR8Imm8Rex p _ _ => p.rex.isSome
  | .movR16Imm16 p _ _ => operandSize c p == .b16
  | .movR32Imm32 p _ _ => operandSize c p == .b32
  | .movR64Imm64 p _ _ => operandSize c p == .b64
  | .movR32Cr _ _ _ _ | .movCrR32 _ _ _ _ | .movR32Dr _ _ _ _ | .movDrR32 _ _ _ _ => c != .c64
  | .movR64Cr p _ cr _ | .movCrR64 p _ cr _ => c == .c64 && !(p.rexR && cr == 0)
  | .movR64Cr8 p _ _ | .movCr8R64 p _ _ => c == .c64 && p.rexR
  | .movR64Dr _ _ _ _ | .movDrR64 _ _ _ _ => c == .c64

/-- The prefixes of an instruction. -/
def Instr.prefixes : Instr → Prefixes
  | .movRm8R8 p _ _ | .movRm8R8Rex p _ _ | .movRm16R16 p _ _ | .movRm32R32 p _ _ | .movRm64R64 p _ _ => p
  | .movR8Rm8 p _ _ | .movR8Rm8Rex p _ _ | .movR16Rm16 p _ _ | .movR32Rm32 p _ _ | .movR64Rm64 p _ _ => p
  | .movRm16Sreg p _ _ | .movRm32Sreg p _ _ | .movRm64Sreg p _ _ => p
  | .movSregRm16 p _ _ | .movSregRm64 p _ _ => p
  | .movAlMoffs8 p _ | .movAlMoffs8RexW p _ | .movAxMoffs16 p _ | .movEaxMoffs32 p _ | .movRaxMoffs64 p _ => p
  | .movMoffs8Al p _ | .movMoffs8AlRexW p _ | .movMoffs16Ax p _ | .movMoffs32Eax p _ | .movMoffs64Rax p _ => p
  | .movR8Imm8 p _ _ | .movR8Imm8Rex p _ _ | .movR16Imm16 p _ _ | .movR32Imm32 p _ _ | .movR64Imm64 p _ _ => p
  | .movRm8Imm8 p _ _ | .movRm8Imm8Rex p _ _ | .movRm16Imm16 p _ _ | .movRm32Imm32 p _ _ | .movRm64Imm32 p _ _ => p
  | .movR32Cr p _ _ _ | .movR64Cr p _ _ _ | .movR64Cr8 p _ _ => p
  | .movCrR32 p _ _ _ | .movCrR64 p _ _ _ | .movCr8R64 p _ _ => p
  | .movR32Dr p _ _ _ | .movR64Dr p _ _ _ | .movDrR32 p _ _ _ | .movDrR64 p _ _ _ => p

/-- The instruction stands for an encoding in the code size `c`: its prefixes exist there, the row is the one its opcode
selects, and it has at most 15 bytes (R92). -/
def Instr.wellFormed (c : CodeSize) (i : Instr) : Bool :=
  i.prefixes.wf c && i.rowWf c && decide (i.length ≤ 15)

end Sys2Proof
end

