-- ==== Sys2Proof/Decode.lean ====
section
/-! DEFINITION. From bytes to instructions and back (30_encoding.md). `decode` is total: it answers an instruction with the bytes
after it, or says by name why it does not. `encode` writes the bytes of an instruction from the same tables. -/

namespace Sys2Proof

/-- Why the decoder gives no instruction (R132). `truncated`: the bytes end inside the instruction. -/
inductive DecodeStop where
  | truncated
  | notInSpec
  | prefixNotModelled
  deriving DecidableEq, Repr

/-- The decoder's answer. -/
abbrev DecodeM (α : Type) := Except DecodeStop α

/-! ## Fields (R102, R103) -/

/-- `n` bits of a byte from bit `lo`. -/
def bits (b : Byte) (lo n : Nat) : BitVec n := b.extractLsb' lo n

/-- A ModR/M byte from mod, reg, r/m (R102); a SIB byte from scale, index, base (R103). -/
def byteOf (hi : BitVec 2) (mid lo : BitVec 3) : Byte := hi ++ mid ++ lo

/-! ## Prefixes (R93, R99) -/

/-- A legacy prefix byte. `rep` stands for F2 and F3. -/
inductive LegacyByte where
  | lock
  | rep
  | seg (s : SegReg)
  | opsize
  | addrsize
  deriving DecidableEq, Repr

/-- The legacy prefix that a byte is (R93). -/
def legacyByte (b : Byte) : Option LegacyByte :=
  if b = 0xF0 then some .lock
  else if b = 0xF2 ∨ b = 0xF3 then some .rep
  else if b = 0x26 then some (.seg .es)
  else if b = 0x2E then some (.seg .cs)
  else if b = 0x36 then some (.seg .ss)
  else if b = 0x3E then some (.seg .ds)
  else if b = 0x64 then some (.seg .fs)
  else if b = 0x65 then some (.seg .gs)
  else if b = 0x66 then some .opsize
  else if b = 0x67 then some .addrsize
  else none

/-- The byte of a segment override (R93). -/
def segByte : SegReg → Byte
  | .es => 0x26
  | .cs => 0x2E
  | .ss => 0x36
  | .ds => 0x3E
  | .fs => 0x64
  | .gs => 0x65

/-- The REX prefix that a byte 40 to 4F is (R99). -/
def rexByte (b : Byte) : Option Rex :=
  if bits b 4 4 = 4 then some ⟨b.getLsbD 3, b.getLsbD 2, b.getLsbD 1, b.getLsbD 0⟩ else none

/-- One more legacy prefix; none where it is not modelled: F2, F3, a doubled prefix, two of one group (R93, R98). -/
def addLegacy (p : Prefixes) : LegacyByte → Option Prefixes
  | .lock => if p.lock then none else some { p with lock := true }
  | .rep => none
  | .seg s => if p.seg.isSome then none else some { p with seg := some s }
  | .opsize => if p.opsize then none else some { p with opsize := true }
  | .addrsize => if p.addrsize then none else some { p with addrsize := true }

/-! ## Operands -/

/-- The next byte. -/
def take8 : List Byte → DecodeM (Byte × List Byte)
  | b :: bs => .ok (b, bs)
  | _ => .error .truncated

/-- The next 2 bytes, little-endian (20_memory.md R63). -/
def take16 : List Byte → DecodeM (BitVec 16 × List Byte)
  | a :: b :: bs => .ok (b ++ a, bs)
  | _ => .error .truncated

/-- The next 4 bytes, little-endian. -/
def take32 : List Byte → DecodeM (BitVec 32 × List Byte)
  | a :: b :: c :: d :: bs => .ok (d ++ c ++ b ++ a, bs)
  | _ => .error .truncated

/-- The next 8 bytes, little-endian. -/
def take64 : List Byte → DecodeM (BitVec 64 × List Byte)
  | a :: b :: c :: d :: e :: f :: g :: h :: bs => .ok (h ++ g ++ f ++ e ++ d ++ c ++ b ++ a, bs)
  | _ => .error .truncated

/-- The displacement that mod = 0, 1, 2 asks for with 16-bit addressing (R109). -/
def takeDisp16 (mod : BitVec 2) (bs : List Byte) : DecodeM (Disp16 × List Byte) :=
  if mod = 1 then do let (d, bs) ← take8 bs; .ok (.d8 d, bs)
  else if mod = 2 then do let (d, bs) ← take16 bs; .ok (.d16 d, bs)
  else .ok (.d0, bs)

/-- The displacement that mod = 0, 1, 2 asks for with 32- and 64-bit addressing (R110, R111). -/
def takeDisp32 (mod : BitVec 2) (bs : List Byte) : DecodeM (Disp32 × List Byte) :=
  if mod = 1 then do let (d, bs) ← take8 bs; .ok (.d8 d, bs)
  else if mod = 2 then do let (d, bs) ← take32 bs; .ok (.d32 d, bs)
  else .ok (.d0, bs)

/-- A memory form with 16-bit addressing (R109). -/
def takeMem16 (mod : BitVec 2) (rm : BitVec 3) (bs : List Byte) : DecodeM (MemForm × List Byte) :=
  if mod = 0 ∧ rm = 6 then do let (d, bs) ← take16 bs; .ok (.abs16 d, bs)
  else do let (d, bs) ← takeDisp16 mod bs; .ok (.base16 rm d, bs)

/-- A memory form with 32- or 64-bit addressing (R110, R111). -/
def takeMem32 (mod : BitVec 2) (rm : BitVec 3) (bs : List Byte) : DecodeM (MemForm × List Byte) :=
  if rm = 4 then do
    let (s, bs) ← take8 bs
    if mod = 0 ∧ bits s 0 3 = 5 then do
      let (d, bs) ← take32 bs
      .ok (.sibNoBase (bits s 6 2) (bits s 3 3) d, bs)
    else do
      let (d, bs) ← takeDisp32 mod bs
      .ok (.sib (bits s 6 2) (bits s 3 3) (bits s 0 3) d, bs)
  else if mod = 0 ∧ rm = 5 then do let (d, bs) ← take32 bs; .ok (.disp d, bs)
  else do let (d, bs) ← takeDisp32 mod bs; .ok (.base rm d, bs)

/-- The ModR/M part: the reg field and the r/m operand (R102, R108). -/
def takeModRm (a : Width) (bs : List Byte) : DecodeM (BitVec 3 × Rm × List Byte) := do
  let (m, bs) ← take8 bs
  if bits m 6 2 = 3 then .ok (bits m 3 3, .reg (bits m 0 3), bs)
  else do
    let (f, bs) ← if a = .b16 then takeMem16 (bits m 6 2) (bits m 0 3) bs else takeMem32 (bits m 6 2) (bits m 0 3) bs
    .ok (bits m 3 3, .mem f, bs)

/-- The memory offset of A0 to A3, `asz/8` bytes (R115). -/
def takeMoffs (a : Width) (bs : List Byte) : DecodeM (Moffs × List Byte) :=
  match a with
  | .b64 => do let (o, bs) ← take64 bs; .ok (.o64 o, bs)
  | .b32 => do let (o, bs) ← take32 bs; .ok (.o32 o, bs)
  | _ => do let (o, bs) ← take16 bs; .ok (.o16 o, bs)

/-! ## Opcodes (R116, R117, R119) -/

/-- A row with a ModR/M byte and no immediate. -/
def modRmRow (a : Width) (bs : List Byte) (row : BitVec 3 → Rm → Instr) : DecodeM (Instr × List Byte) := do
  let (reg, rm, bs) ← takeModRm a bs
  .ok (row reg rm, bs)

/-- A row with a memory offset. -/
def moffsRow (a : Width) (bs : List Byte) (row : Moffs → Instr) : DecodeM (Instr × List Byte) := do
  let (o, bs) ← takeMoffs a bs
  .ok (row o, bs)

/-- One of three rows, by the operand size. -/
def bySize {α : Type} (w : Width) (r16 r32 r64 : α) : α :=
  match w with
  | .b64 => r64
  | .b32 => r32
  | _ => r16

/-- The r/m operand of C6 and C7, whose reg field must be 0 (R130). Another reg field is refused once the ModR/M part is read: its SIB
and displacement bytes are needed first, the immediate is not. DESIGN CHOICE: the spec does not say which bytes are (entry 26). -/
def takeModRm0 (a : Width) (bs : List Byte) : DecodeM (Rm × List Byte) := do
  let (reg, rm, bs) ← takeModRm a bs
  if reg = 0 then .ok (rm, bs) else .error .notInSpec

/-- Opcode B8 to BF and its immediate (R114). -/
def movRegImm (w : Width) (p : Prefixes) (r : BitVec 3) (bs : List Byte) : DecodeM (Instr × List Byte) :=
  match w with
  | .b64 => do let (v, bs) ← take64 bs; .ok (.movR64Imm64 p r v, bs)
  | .b32 => do let (v, bs) ← take32 bs; .ok (.movR32Imm32 p r v, bs)
  | _ => do let (v, bs) ← take16 bs; .ok (.movR16Imm16 p r v, bs)

/-- Opcode C7 /0 and its immediate (R114). -/
def movRmImm (a w : Width) (p : Prefixes) (bs : List Byte) : DecodeM (Instr × List Byte) := do
  let (rm, bs) ← takeModRm0 a bs
  match w with
  | .b64 => do let (v, bs) ← take32 bs; .ok (.movRm64Imm32 p rm v, bs)
  | .b32 => do let (v, bs) ← take32 bs; .ok (.movRm32Imm32 p rm v, bs)
  | _ => do let (v, bs) ← take16 bs; .ok (.movRm16Imm16 p rm v, bs)

/-- The two-byte opcodes 0F 20 to 0F 23, after the escape (R117, R119). The ModR/M byte is always a register form (R108). -/
def decodeEscape (c : CodeSize) (p : Prefixes) (bs : List Byte) : DecodeM (Instr × List Byte) := do
  let (op, bs) ← take8 bs
  if bits op 2 6 = 8 then do
    let (m, bs) ← take8 bs
    let mod := bits m 6 2
    let reg := bits m 3 3
    let r := bits m 0 3
    let cr8 := p.rexR && reg == 0
    let i :=
      if op = 0x20 then if c = .c64 then (if cr8 then .movR64Cr8 p mod r else .movR64Cr p mod reg r) else .movR32Cr p mod reg r
      else if op = 0x21 then if c = .c64 then .movR64Dr p mod reg r else .movR32Dr p mod reg r
      else if op = 0x22 then if c = .c64 then (if cr8 then .movCr8R64 p mod r else .movCrR64 p mod reg r) else .movCrR32 p mod reg r
      else if c = .c64 then .movDrR64 p mod reg r else .movDrR32 p mod reg r
    .ok (i, bs)
  else .error .notInSpec

/-- The row of an opcode byte, after all prefixes (R116, R119). -/
def decodeOpcode (c : CodeSize) (p : Prefixes) (op : Byte) (bs : List Byte) : DecodeM (Instr × List Byte) :=
  let a := addressSize c p
  let w := operandSize c p
  let rex := p.rex.isSome
  if op = 0x88 then modRmRow a bs fun g m => if rex then .movRm8R8Rex p m g else .movRm8R8 p m g
  else if op = 0x89 then modRmRow a bs fun g m => bySize w (.movRm16R16 p m g) (.movRm32R32 p m g) (.movRm64R64 p m g)
  else if op = 0x8A then modRmRow a bs fun g m => if rex then .movR8Rm8Rex p g m else .movR8Rm8 p g m
  else if op = 0x8B then modRmRow a bs fun g m => bySize w (.movR16Rm16 p g m) (.movR32Rm32 p g m) (.movR64Rm64 p g m)
  else if op = 0x8C then modRmRow a bs fun g m => bySize w (.movRm16Sreg p m g) (.movRm32Sreg p m g) (.movRm64Sreg p m g)
  else if op = 0x8E then modRmRow a bs fun g m => if p.rexW then .movSregRm64 p g m else .movSregRm16 p g m
  else if op = 0xA0 then moffsRow a bs fun o => if p.rexW then .movAlMoffs8RexW p o else .movAlMoffs8 p o
  else if op = 0xA1 then moffsRow a bs fun o => bySize w (.movAxMoffs16 p o) (.movEaxMoffs32 p o) (.movRaxMoffs64 p o)
  else if op = 0xA2 then moffsRow a bs fun o => if p.rexW then .movMoffs8AlRexW p o else .movMoffs8Al p o
  else if op = 0xA3 then moffsRow a bs fun o => bySize w (.movMoffs16Ax p o) (.movMoffs32Eax p o) (.movMoffs64Rax p o)
  else if bits op 3 5 = 0x16 then do
    let (v, bs) ← take8 bs
    .ok (if rex then .movR8Imm8Rex p (bits op 0 3) v else .movR8Imm8 p (bits op 0 3) v, bs)
  else if bits op 3 5 = 0x17 then movRegImm w p (bits op 0 3) bs
  else if op = 0xC6 then do
    let (rm, bs) ← takeModRm0 a bs
    let (v, bs) ← take8 bs
    .ok (if rex then .movRm8Imm8Rex p rm v else .movRm8Imm8 p rm v, bs)
  else if op = 0xC7 then movRmImm a w p bs
  else if op = 0x0F then decodeEscape c p bs
  else .error .notInSpec

/-- The byte after a REX prefix must be the opcode (R99). -/
def decodeAfterRex (c : CodeSize) (p : Prefixes) : List Byte → DecodeM (Instr × List Byte)
  | [] => .error .truncated
  | op :: bs => if (legacyByte op).isSome ∨ (rexByte op).isSome then .error .prefixNotModelled else decodeOpcode c p op bs

/-- The instruction at the head of the bytes, after the prefixes `p` (R91). -/
def decodeFrom (c : CodeSize) (p : Prefixes) : List Byte → DecodeM (Instr × List Byte)
  | [] => .error .truncated
  | b :: bs =>
    match legacyByte b with
    | some l =>
      match addLegacy p l with
      | some p' => decodeFrom c p' bs
      | none => .error .prefixNotModelled
    | none =>
      match c, rexByte b with
      | .c64, some x => decodeAfterRex c { p with rex := some x } bs
      | _, _ => decodeOpcode c p b bs

/-- The instruction at the head of the bytes in the code size `c`, and the bytes after it. -/
def decode (c : CodeSize) (bs : List Byte) : DecodeM (Instr × List Byte) := decodeFrom c .empty bs

/-! ## The encoder -/

/-- The 2 bytes of a value, little-endian (20_memory.md R63). -/
def bytes16 (v : BitVec 16) : List Byte := [v.extractLsb' 0 8, v.extractLsb' 8 8]

/-- The 4 bytes of a value, little-endian. -/
def bytes32 (v : BitVec 32) : List Byte := [v.extractLsb' 0 8, v.extractLsb' 8 8, v.extractLsb' 16 8, v.extractLsb' 24 8]

/-- The 8 bytes of a value, little-endian. -/
def bytes64 (v : BitVec 64) : List Byte :=
  [v.extractLsb' 0 8, v.extractLsb' 8 8, v.extractLsb' 16 8, v.extractLsb' 24 8,
   v.extractLsb' 32 8, v.extractLsb' 40 8, v.extractLsb' 48 8, v.extractLsb' 56 8]

/-- A REX prefix byte (R99). -/
def Rex.byte (x : Rex) : Byte :=
  (4 : BitVec 4) ++ BitVec.ofBool x.w ++ BitVec.ofBool x.r ++ BitVec.ofBool x.x ++ BitVec.ofBool x.b

/-- The prefix bytes, in one order (the legacy prefixes may stand in any, R90). -/
def Prefixes.encode (p : Prefixes) : List Byte :=
  (if p.lock then [0xF0] else []) ++ (match p.seg with | some s => [segByte s] | none => []) ++
  (if p.opsize then [0x66] else []) ++ (if p.addrsize then [0x67] else []) ++
  (match p.rex with | some x => [x.byte] | none => [])

/-- The mod field and the bytes of a displacement (R109). -/
def Disp16.encode : Disp16 → BitVec 2 × List Byte
  | .d0 => (0, [])
  | .d8 d => (1, [d])
  | .d16 d => (2, bytes16 d)

/-- The mod field and the bytes of a displacement (R110, R111). -/
def Disp32.encode : Disp32 → BitVec 2 × List Byte
  | .d0 => (0, [])
  | .d8 d => (1, [d])
  | .d32 d => (2, bytes32 d)

/-- The ModR/M part with the given reg field (R102, R103, R109 to R111). -/
def Rm.encode (reg : BitVec 3) : Rm → List Byte
  | .reg n => [byteOf 3 reg n]
  | .mem (.base16 rm d) => byteOf d.encode.1 reg rm :: d.encode.2
  | .mem (.abs16 d) => byteOf 0 reg 6 :: bytes16 d
  | .mem (.base rm d) => byteOf d.encode.1 reg rm :: d.encode.2
  | .mem (.disp d) => byteOf 0 reg 5 :: bytes32 d
  | .mem (.sib s i b d) => byteOf d.encode.1 reg 4 :: byteOf s i b :: d.encode.2
  | .mem (.sibNoBase s i d) => byteOf 0 reg 4 :: byteOf s i 5 :: bytes32 d

/-- The bytes of a memory offset (R115). -/
def Moffs.encode : Moffs → List Byte
  | .o16 o => bytes16 o
  | .o32 o => bytes32 o
  | .o64 o => bytes64 o

/-- The opcode byte of a `+r` row (R106). -/
def plusReg (op : BitVec 5) (r : BitVec 3) : Byte := op ++ r

/-- The bytes of an instruction: prefixes, opcode, ModR/M part, immediate (R90, R116, R117). -/
def encode : Instr → List Byte
  | .movRm8R8 p rm g | .movRm8R8Rex p rm g => p.encode ++ 0x88 :: rm.encode g
  | .movRm16R16 p rm g | .movRm32R32 p rm g | .movRm64R64 p rm g => p.encode ++ 0x89 :: rm.encode g
  | .movR8Rm8 p g rm | .movR8Rm8Rex p g rm => p.encode ++ 0x8A :: rm.encode g
  | .movR16Rm16 p g rm | .movR32Rm32 p g rm | .movR64Rm64 p g rm => p.encode ++ 0x8B :: rm.encode g
  | .movRm16Sreg p rm g | .movRm32Sreg p rm g | .movRm64Sreg p rm g => p.encode ++ 0x8C :: rm.encode g
  | .movSregRm16 p g rm | .movSregRm64 p g rm => p.encode ++ 0x8E :: rm.encode g
  | .movAlMoffs8 p o | .movAlMoffs8RexW p o => p.encode ++ 0xA0 :: o.encode
  | .movAxMoffs16 p o | .movEaxMoffs32 p o | .movRaxMoffs64 p o => p.encode ++ 0xA1 :: o.encode
  | .movMoffs8Al p o | .movMoffs8AlRexW p o => p.encode ++ 0xA2 :: o.encode
  | .movMoffs16Ax p o | .movMoffs32Eax p o | .movMoffs64Rax p o => p.encode ++ 0xA3 :: o.encode
  | .movR8Imm8 p r v | .movR8Imm8Rex p r v => p.encode ++ [plusReg 0x16 r, v]
  | .movR16Imm16 p r v => p.encode ++ plusReg 0x17 r :: bytes16 v
  | .movR32Imm32 p r v => p.encode ++ plusReg 0x17 r :: bytes32 v
  | .movR64Imm64 p r v => p.encode ++ plusReg 0x17 r :: bytes64 v
  | .movRm8Imm8 p rm v | .movRm8Imm8Rex p rm v => p.encode ++ 0xC6 :: (rm.encode 0 ++ [v])
  | .movRm16Imm16 p rm v => p.encode ++ 0xC7 :: (rm.encode 0 ++ bytes16 v)
  | .movRm32Imm32 p rm v | .movRm64Imm32 p rm v => p.encode ++ 0xC7 :: (rm.encode 0 ++ bytes32 v)
  | .movR32Cr p m g r | .movR64Cr p m g r => p.encode ++ [0x0F, 0x20, byteOf m g r]
  | .movR64Cr8 p m r => p.encode ++ [0x0F, 0x20, byteOf m 0 r]
  | .movR32Dr p m g r | .movR64Dr p m g r => p.encode ++ [0x0F, 0x21, byteOf m g r]
  | .movCrR32 p m g r | .movCrR64 p m g r => p.encode ++ [0x0F, 0x22, byteOf m g r]
  | .movCr8R64 p m r => p.encode ++ [0x0F, 0x22, byteOf m 0 r]
  | .movDrR32 p m g r | .movDrR64 p m g r => p.encode ++ [0x0F, 0x23, byteOf m g r]

/-! ## Words of the opcode table -/

/-- The 15 instruction bytes of a word numbered as spec/opcode_table.json numbers it: byte k is bits 8k+7 to 8k, zero from
`nbits` on. The table's bits start at the opcode byte that follows the 0F escape (R135), so the escape is put before a first
byte 20 to 23, which is no one-byte opcode of the table (entry 28). -/
def tableBytes (nbits w : Nat) : List Byte :=
  let v := w % 2 ^ nbits
  let bs := (List.range 15).map fun k => BitVec.ofNat 8 (v >>> (8 * k))
  if bits (BitVec.ofNat 8 v) 2 6 = 8 then 0x0F :: bs.take 14 else bs

/-- The instruction the decoder reads from a word of the opcode table: in the 16-bit code of the mode after reset, and where
that reads none, in 64-bit code, the only one in which a REX row exists (entry 28). -/
def decodeTableWord (nbits w : Nat) : Option Instr :=
  match decode .c16 (tableBytes nbits w) with
  | .ok (i, _) => some i
  | .error _ =>
    match decode .c64 (tableBytes nbits w) with
    | .ok (i, _) => some i
    | .error _ => none

end Sys2Proof
end

