-- ==== Sys2Proof/Machine/Fetch.lean ====
section
/-! DEFINITION. Fetching and decoding the instruction at `pc`, and placing one there (10_state.md R27; 20_memory.md R63, R84; 30_encoding.md R91,
R92, R132; 60_exceptions.md R277). -/

namespace Sys2Proof.Machine

/-- The top of the offset space (10_state.md R27). -/
def State.pcTop (s : State) : Nat :=
  match s.codeSize with
  | .c64 => 2 ^ 64 - 1
  | .c32 => 2 ^ 32 - 1
  | .c16 => 2 ^ 16 - 1

/-- The physical address of instruction byte `k`: past the top of the offset space, or not canonical in 64-bit mode, it is refused
(R27, D28); outside 64-bit mode it must be inside the CS limit (R277, D28); then it is translated (R277). -/
def State.fetchAddr (s : State) (k : Nat) : Res Nat :=
  let o := s.pc.toNat + k
  if s.pcTop < o then .error (.refuse (.notInSpec .pcWrap))
  else if s.mode = .long64 ∧ ¬ s.canonical (s.linear .cs s.pc k) then .error (.refuse (.notInSpec .pcWrap))
  else if s.mode ≠ .long64 ∧ ¬ inLimit s.cs.hidden.d o 1 then .error (.exc (.gp 0))
  else
    match s.translate (s.linear .cs s.pc k) { type := .fetch, user := s.privilege == 3 } with
    | .phys pa => .ok pa.toNat
    | .pageFault c => .error (.exc (.pf c (s.linear .cs s.pc k)))

/-- Instruction byte `k`, from the same memory as data (R84, D7). -/
def State.fetchByte (s : State) (k : Nat) : Res Byte := do
  let pa ← s.fetchAddr k
  if s.backed pa then .ok (Memory.read s.mem pa) else .error (.refuse .unbackedMemory)

/-- At most `n` instruction bytes from byte `k` on, and why there are fewer. A byte that the instruction does not have raises nothing:
only the decoder's need of it does. The bytes are taken in rising order (R63), so of several that cannot be fetched the lowest tells why:
DEDUCED (entry 25), unsafe, since R277 orders no two bytes. -/
def State.fetchBytes (s : State) : Nat → Nat → List Byte × Option Stop
  | 0, _ => ([], none)
  | n + 1, k =>
    match s.fetchByte k with
    | .ok b => (b :: (s.fetchBytes n (k + 1)).1, (s.fetchBytes n (k + 1)).2)
    | .error e => ([], some e)

/-- The instruction at `pc` (R91), of at most 15 bytes (R92, D21). -/
def State.fetchInstr (s : State) : Res Instr :=
  let w := s.fetchBytes 15 0
  match decode s.codeSize w.1 with
  | .ok (i, _) => .ok i
  | .error .truncated => .error (w.2.getD (.refuse .tooLong))
  | .error .notInSpec => .error (.refuse (.notInSpec .encoding))
  | .error .prefixNotModelled => .error (.refuse .prefixNotModelled)

/-- In 64-bit mode the next `pc` must be canonical (R27, D28). `step` asks it before the instruction runs, so it goes before the
instruction's own exceptions: DESIGN CHOICE (entry 14), safe. R27 and D28 refuse a step by its next `pc`, but R27 also leaves `pc` in place at
a fault, and R277 does not rank the refusal. -/
def State.nextPcOk (s : State) (i : Instr) : Bool := s.mode != .long64 || s.canonical (s.nextPc i.length)

/-- A step is refused while DR7 arms a breakpoint, where the parameter says so (43_mov_dr.md R263, D32; entry 22). -/
def State.breakpointsRefuse (s : State) : Bool := s.cfg.breakpoints == .refuse && s.armed

/-! ## Placing an instruction (entry 28) -/

/-- One byte of ordinary memory with a given value, backed if it was not. -/
def State.place (s : State) (pa : Nat) (b : Byte) : State :=
  { s with
    mem := Memory.write s.mem pa b
    backing := if s.backed pa then s.backing else { base := pa, size := 1 } :: s.backing }

/-- Bytes placed where the state `s` fetches its instruction bytes `k`, `k + 1`, … -/
def State.placeBytes (s : State) : Nat → List Byte → State → State
  | _, [], t => t
  | k, b :: bs, t =>
    s.placeBytes (k + 1) bs
      (match s.fetchAddr k with
       | .ok pa => t.place pa b
       | .error _ => t)

end Sys2Proof.Machine
end

