-- ==== Sys2Proof/Machine/Launch.lean ====
section
/-! DEFINITION. The conditions that a launch state must satisfy (70_reset_and_hazards.md R311). -/

namespace Sys2Proof.Machine

/-- R311 (a): the mode agrees with EFLAGS.VM and EFER.LMA. `State.mode` is computed as 10_state.md R34 says, so all that can disagree is
a VM set outside virtual-8086 mode or an LMA set outside IA-32e mode, as any LMA is on a part without Intel 64 (00_scope.md R6)
(DEDUCED, entry 34: safe). -/
def State.launchMode (s : State) : Bool := (!flagsVM s.flags || s.mode == .v86) && (!s.lma || s.ia32e)

/-- R311 (b): CPL is 0 in real-address mode and 3 in virtual-8086 mode. -/
def State.launchCpl (s : State) : Bool := (s.mode != .real || s.cpl == 0) && (s.mode != .v86 || s.cpl == 3)

/-- R311 (c): no invalid combination and no reserved bit in the control registers. -/
def State.launchCrs (s : State) : Bool :=
  !cr0Invalid s.cfg s.cr0 && s.cr0 &&& s.cfg.cr0Reserved == 0 && s.cr3 &&& cr3Mask s.cfg == 0 && s.cr4 &&& cr4Mask s.cfg == 0 &&
  s.cr8 &&& s.cfg.cr8Reserved == 0 && (!s.ia32e || (cr4PAE s.cr4 && cr0PG s.cr0)) && (!cr4PCIDE s.cr4 || s.ia32e)

/-- R311 (d): `pc` is canonical in 64-bit mode and has no bit above 31 set elsewhere. -/
def State.launchPc (s : State) : Bool :=
  if s.mode = .long64 then s.canonical s.pc else s.pc.extractLsb' 32 32 == 0

/-- R311 (e): bits 63:32 of DR6 and DR7 are 0. -/
def State.launchDrs (s : State) : Bool := s.dr6.extractLsb' 32 32 == 0 && s.dr7.extractLsb' 32 32 == 0

/-- The conditions (a) to (e) of R311. A step checks them of every state, since any state may be a launch state: a completed step keeps
them where the parameters agree with themselves (entry 34). -/
def State.launchOk (s : State) : Bool := s.launchMode && s.launchCpl && s.launchCrs && s.launchPc && s.launchDrs

end Sys2Proof.Machine
end

