-- ==== Sys2Proof/Machine/Step.lean ====
section
/-! DEFINITION. One step of the machine: fetch, decode, execute (00_scope.md R19). -/

namespace Sys2Proof.Machine

/-- One step: the instruction at `pc`, or why there is none. A state that breaks a condition of 70_reset_and_hazards.md R311 is refused
first. A next `pc` that is not canonical in 64-bit mode is refused before the instruction runs, also where it would itself fault
(DESIGN CHOICE, entry 14: safe). -/
def step (s : State) : Host.Outcome State Fault Refusal :=
  if !s.launchOk then .refused (.notInSpec .illFormedLaunch)
  else if s.breakpointsRefuse then .refused (.notInSpec .armedBreakpoints)
  else
    match s.fetchInstr with
    | .error e => s.stop e
    | .ok i => if s.nextPcOk i then exec i s else .refused (.notInSpec .pcWrap)

/-- The state with the instruction of an opcode-table word, as `decodeTableWord` lays it out, where `step` fetches its next instruction
(entry 28). -/
def State.withFetchWord (s : State) (nbits w : Nat) : State := s.placeBytes 0 (tableBytes nbits w) s

end Sys2Proof.Machine
end

