-- ==== Sys2Proof/Safety.lean ====
section
/-! DEFINITION. The terms that statements use: the well-formedness of a launch state (70_reset_and_hazards.md R311), and what an instruction
leaves unchanged. -/

namespace Sys2Proof.Machine

/-- Parameters that agree with themselves: CR0.ET is not both fixed at 1 and reserved (00_scope.md R8, R10), and the fixed bits of DR6 and
DR7 leave bits 63:32 clear (R311 (e)). -/
structure ParamsWf (cfg : Params) : Prop where
  et : cfg.cr0EtFixed = true → cr0ET cfg.cr0Reserved = false
  dr6 : cfg.dr6Fixed.value.extractLsb' 32 32 = 0
  dr7 : cfg.dr7Fixed.value.extractLsb' 32 32 = 0

/-- The well-formedness of a launch state, R311 (a) to (e). -/
structure LaunchConditions (s : State) : Prop where
  /-- (a): EFLAGS.VM agrees with the mode. -/
  vm : flagsVM s.flags = true → s.mode = .v86
  /-- (a): EFER.LMA agrees with the mode. -/
  lma : s.lma = true → s.mode = .long64 ∨ s.mode = .compat
  /-- (b). -/
  cplReal : s.mode = .real → s.cpl = 0
  /-- (b). -/
  cplV86 : s.mode = .v86 → s.cpl = 3
  /-- (c). -/
  cr0Valid : cr0Invalid s.cfg s.cr0 = false
  /-- (c). -/
  cr0Clear : s.cr0 &&& s.cfg.cr0Reserved = 0
  /-- (c). -/
  cr3Clear : s.cr3 &&& cr3Mask s.cfg = 0
  /-- (c). -/
  cr4Clear : s.cr4 &&& cr4Mask s.cfg = 0
  /-- (c). -/
  cr8Clear : s.cr8 &&& s.cfg.cr8Reserved = 0
  /-- (c). -/
  ia32e : s.mode = .long64 ∨ s.mode = .compat → cr4PAE s.cr4 = true ∧ cr0PG s.cr0 = true
  /-- (c). -/
  pcide : cr4PCIDE s.cr4 = true → s.mode = .long64 ∨ s.mode = .compat
  /-- (d). -/
  pcHigh : s.mode ≠ .long64 → s.pc.extractLsb' 32 32 = 0
  /-- (d). -/
  pcCanonical : s.mode = .long64 → s.canonical s.pc = true
  /-- (e). -/
  dr6 : s.dr6.extractLsb' 32 32 = 0
  /-- (e). -/
  dr7 : s.dr7.extractLsb' 32 32 = 0

/-- The invariant of a run: the conditions of R311, and what the model adds to them. -/
structure LaunchWf (s : State) : Prop extends LaunchConditions s where
  params : ParamsWf s.cfg
  /-- EFER.LMA is EFER.LME and CR0.PG together (R232; entry 13). -/
  lmaFollows : s.lma = (s.lme && cr0PG s.cr0)
  /-- A part without Intel 64 has no IA-32e mode (R6). -/
  arch : s.cfg.arch64 = false → s.lme = false
  memory : Memory.wf s.mem = true

/-! ## Frames -/

/-- The same general registers but for those in a list. -/
def SameGprBut (l : List (BitVec 4)) (s t : State) : Prop := ∀ n, n ∉ l → t.x n = s.x n

/-- The same segment registers. -/
structure SameSegs (s t : State) : Prop where
  es : t.es = s.es
  cs : t.cs = s.cs
  ss : t.ss = s.ss
  ds : t.ds = s.ds
  fs : t.fs = s.fs
  gs : t.gs = s.gs

/-- The same control registers, EFER bits and PDPT registers. -/
structure SameCrs (s t : State) : Prop where
  cr0 : t.cr0 = s.cr0
  cr2 : t.cr2 = s.cr2
  cr3 : t.cr3 = s.cr3
  cr4 : t.cr4 = s.cr4
  cr8 : t.cr8 = s.cr8
  lme : t.lme = s.lme
  lma : t.lma = s.lma
  pdpte : t.pdpte = s.pdpte

/-- The same debug registers. -/
structure SameDrs (s t : State) : Prop where
  dr0 : t.dr0 = s.dr0
  dr1 : t.dr1 = s.dr1
  dr2 : t.dr2 = s.dr2
  dr3 : t.dr3 = s.dr3
  dr6 : t.dr6 = s.dr6
  dr7 : t.dr7 = s.dr7

/-- The same CPL, table registers, platform and parameters, which none of the 45 rows writes. -/
structure SameFixed (s t : State) : Prop where
  cpl : t.cpl = s.cpl
  gdtr : t.gdtr = s.gdtr
  ldtr : t.ldtr = s.ldtr
  backing : t.backing = s.backing
  cfg : t.cfg = s.cfg

/-- Every byte of memory reads the same. -/
def SameMem (s t : State) : Prop := ∀ a, Memory.read t.mem a = Memory.read s.mem a

/-- Every byte of memory outside a list of addresses reads the same. -/
def SameMemBut (l : List Nat) (s t : State) : Prop := ∀ a, a ∉ l → Memory.read t.mem a = Memory.read s.mem a

/-- RFLAGS is the same but for the six status flags (10_state.md R29). -/
def SameFlagsButStatus (s t : State) : Prop := ∀ n, n ∉ [0, 2, 4, 6, 7, 11] → t.flags.getLsbD n = s.flags.getLsbD n

/-- What every row of 40_mov_data.md and the 8C rows leave alone: all but general registers, memory, `pc` and `ss_shadow`. -/
structure SameSystem (s t : State) : Prop where
  flags : t.flags = s.flags
  segs : SameSegs s t
  crs : SameCrs s t
  drs : SameDrs s t
  fixed : SameFixed s t

/-! ## What an instruction is -/

/-- The rows of 42_mov_cr.md and 43_mov_dr.md. -/
def isCrDr : Instr → Bool
  | .movR32Cr .. | .movR64Cr .. | .movR64Cr8 .. | .movCrR32 .. | .movCrR64 .. | .movCr8R64 .. => true
  | .movR32Dr .. | .movR64Dr .. | .movDrR32 .. | .movDrR64 .. => true
  | .movRm8R8 .. | .movRm8R8Rex .. | .movRm16R16 .. | .movRm32R32 .. | .movRm64R64 .. => false
  | .movR8Rm8 .. | .movR8Rm8Rex .. | .movR16Rm16 .. | .movR32Rm32 .. | .movR64Rm64 .. => false
  | .movRm16Sreg .. | .movRm32Sreg .. | .movRm64Sreg .. | .movSregRm16 .. | .movSregRm64 .. => false
  | .movAlMoffs8 .. | .movAlMoffs8RexW .. | .movAxMoffs16 .. | .movEaxMoffs32 .. | .movRaxMoffs64 .. => false
  | .movMoffs8Al .. | .movMoffs8AlRexW .. | .movMoffs16Ax .. | .movMoffs32Eax .. | .movMoffs64Rax .. => false
  | .movR8Imm8 .. | .movR8Imm8Rex .. | .movR16Imm16 .. | .movR32Imm32 .. | .movR64Imm64 .. => false
  | .movRm8Imm8 .. | .movRm8Imm8Rex .. | .movRm16Imm16 .. | .movRm32Imm32 .. | .movRm64Imm32 .. => false

/-- The segment register that an 8E row names in its ModR/M reg field (10_state.md R31). -/
def loadedSreg : Instr → Option (BitVec 3)
  | .movSregRm16 _ sreg _ | .movSregRm64 _ sreg _ => some sreg
  | _ => none

/-- The ModR/M reg field of an 8C or 8E row names a segment register that the row may use: one of the six, and not CS for a load
(30_encoding.md R130). -/
def sregUsable : Instr → Bool
  | .movRm16Sreg _ _ sreg | .movRm32Sreg _ _ sreg | .movRm64Sreg _ _ sreg => decide (sreg.toNat < 6)
  | .movSregRm16 _ sreg _ | .movSregRm64 _ sreg _ => decide (sreg.toNat < 6) && sreg != 1
  | _ => true

/-! ## Rows of one shape: the operand width and the constructor -/

/-- Opcodes 88 and 89: r/m ← register. -/
def movRmRegRows : List (Width × (Prefixes → Rm → BitVec 3 → Instr)) :=
  [(.b8, .movRm8R8), (.b8, .movRm8R8Rex), (.b16, .movRm16R16), (.b32, .movRm32R32), (.b64, .movRm64R64)]

/-- Opcodes 8A and 8B: register ← r/m. -/
def movRegRmRows : List (Width × (Prefixes → BitVec 3 → Rm → Instr)) :=
  [(.b8, .movR8Rm8), (.b8, .movR8Rm8Rex), (.b16, .movR16Rm16), (.b32, .movR32Rm32), (.b64, .movR64Rm64)]

/-- Opcodes A0 and A1: accumulator ← memory offset. -/
def movAccMoffsRows : List (Width × (Prefixes → Moffs → Instr)) :=
  [(.b8, .movAlMoffs8), (.b8, .movAlMoffs8RexW), (.b16, .movAxMoffs16), (.b32, .movEaxMoffs32), (.b64, .movRaxMoffs64)]

/-- Opcodes A2 and A3: memory offset ← accumulator. -/
def movMoffsAccRows : List (Width × (Prefixes → Moffs → Instr)) :=
  [(.b8, .movMoffs8Al), (.b8, .movMoffs8AlRexW), (.b16, .movMoffs16Ax), (.b32, .movMoffs32Eax), (.b64, .movMoffs64Rax)]

/-- Opcodes B0 to BF: register ← immediate, the low bits of the last argument. -/
def movRegImmRows : List (Width × (Prefixes → BitVec 3 → Quad → Instr)) :=
  [(.b8, fun p r v => .movR8Imm8 p r (v.setWidth 8)), (.b8, fun p r v => .movR8Imm8Rex p r (v.setWidth 8)),
   (.b16, fun p r v => .movR16Imm16 p r (v.setWidth 16)), (.b32, fun p r v => .movR32Imm32 p r (v.setWidth 32)),
   (.b64, fun p r v => .movR64Imm64 p r v)]

/-- Opcodes C6 and C7 but for the 64-bit row: r/m ← immediate, the low bits of the last argument. -/
def movRmImmRows : List (Width × (Prefixes → Rm → Quad → Instr)) :=
  [(.b8, fun p rm v => .movRm8Imm8 p rm (v.setWidth 8)), (.b8, fun p rm v => .movRm8Imm8Rex p rm (v.setWidth 8)),
   (.b16, fun p rm v => .movRm16Imm16 p rm (v.setWidth 16)), (.b32, fun p rm v => .movRm32Imm32 p rm (v.setWidth 32))]

/-- Opcode 8C: r/m ← segment register. -/
def movRmSregRows : List (Width × (Prefixes → Rm → BitVec 3 → Instr)) :=
  [(.b16, .movRm16Sreg), (.b32, .movRm32Sreg), (.b64, .movRm64Sreg)]

/-- Opcode 8E: segment register ← r/m. -/
def movSregRmRows : List (Prefixes → BitVec 3 → Rm → Instr) := [.movSregRm16, .movSregRm64]

/-- Opcode 0F 20: register ← control register, with the control-register number (42_mov_cr.md R212). -/
def movRegCrRows : List (Width × (Prefixes → BitVec 2 → BitVec 3 → BitVec 3 → Instr) × (Prefixes → BitVec 3 → BitVec 4)) :=
  [(.b32, .movR32Cr, regField), (.b64, .movR64Cr, regField), (.b64, fun p mod _ r => .movR64Cr8 p mod r, fun _ _ => 8)]

/-- Opcode 0F 22: control register ← register, with the control-register number (42_mov_cr.md R212). -/
def movCrRegRows : List (Width × (Prefixes → BitVec 2 → BitVec 3 → BitVec 3 → Instr) × (Prefixes → BitVec 3 → BitVec 4)) :=
  [(.b32, .movCrR32, regField), (.b64, .movCrR64, regField), (.b64, fun p mod _ r => .movCr8R64 p mod r, fun _ _ => 8)]

/-- Opcode 0F 21: register ← debug register. -/
def movRegDrRows : List (Width × (Prefixes → BitVec 2 → BitVec 3 → BitVec 3 → Instr)) := [(.b32, .movR32Dr), (.b64, .movR64Dr)]

/-- Opcode 0F 23: debug register ← register. -/
def movDrRegRows : List (Width × (Prefixes → BitVec 2 → BitVec 3 → BitVec 3 → Instr)) := [(.b32, .movDrR32), (.b64, .movDrR64)]

/-! ## Results -/

/-- The general register that holds a register operand: AH, CH, DH, BH, the byte registers 4 to 7 without a REX prefix, are in x[0] to
x[3] (10_state.md R24, R25). -/
def homeReg (rex : Bool) (w : Width) (n : BitVec 4) : BitVec 4 :=
  if w = .b8 ∧ rex = false ∧ 4 ≤ n.toNat ∧ n.toNat ≤ 7 then n - 4 else n

/-- The bit of that register at which the operand starts (10_state.md R24). -/
def homeBit (rex : Bool) (w : Width) (n : BitVec 4) : Nat :=
  if w = .b8 ∧ rex = false ∧ 4 ≤ n.toNat ∧ n.toNat ≤ 7 then 8 else 0

/-- What a register write does, bit by bit (10_state.md R23 to R25). -/
structure RegWritten (s t : State) (rex : Bool) (w : Width) (n : BitVec 4) (v : Quad) : Prop where
  /-- The operand's bits are those of the value. -/
  value : ∀ k, k < 8 * w.bytes → (t.x (homeReg rex w n)).getLsbD (homeBit rex w n + k) = v.getLsbD k
  /-- An 8- or 16-bit write keeps every other bit. -/
  kept : w = .b8 ∨ w = .b16 → ∀ k, k < homeBit rex w n ∨ homeBit rex w n + 8 * w.bytes ≤ k →
    (t.x (homeReg rex w n)).getLsbD k = (s.x (homeReg rex w n)).getLsbD k
  /-- A 32-bit write in 64-bit mode clears bits 63:32. -/
  cleared : w = .b32 → s.mode = .long64 → ∀ k, 32 ≤ k → (t.x (homeReg rex w n)).getLsbD k = false
  others : SameGprBut [homeReg rex w n] s t

/-- What a store does: the bytes of the value at the addresses in turn, the least significant first (20_memory.md R62), and every
other byte as before. The bytes are those of the value where no address occurs twice and memory is in canonical form. -/
structure StoredAt (pas : List Nat) (v : Quad) (s t : State) : Prop where
  bytes : Memory.wf s.mem = true → pas.Nodup → ∀ k (h : k < pas.length), Memory.read t.mem pas[k] = v.extractLsb' (8 * k) 8
  others : SameMemBut pas s t

/-- What writing (address, byte) cells does: each address reads as its byte, where no address occurs twice and memory is in canonical
form, and every other byte as before. -/
structure CellsWritten (cells : List Host.Cell) (s t : State) : Prop where
  bytes : Memory.wf s.mem = true → (cells.map Prod.fst).Nodup → ∀ c ∈ cells, Memory.read t.mem c.1 = c.2
  others : SameMemBut (cells.map Prod.fst) s t

/-- The descriptor `d` has the fields that the 8-byte table entry `e` gives (41_mov_sreg.md R187's instance). -/
structure EntryFields (e : Quad) (d : Descriptor) : Prop where
  dpl : d.dpl = e.extractLsb' 45 2
  present : d.present = e.getLsbD 47
  long : d.long = e.getLsbD 53
  big : d.big = e.getLsbD 54
  base : d.base = (e.extractLsb' 56 8 ++ e.extractLsb' 16 24).setWidth 64
  limitBytes : e.getLsbD 55 = false → d.limit = (e.extractLsb' 48 4 ++ e.extractLsb' 0 16).setWidth 32
  limitPages : e.getLsbD 55 = true → d.limit.toNat = (e.extractLsb' 48 4 ++ e.extractLsb' 0 16).toNat * 4096 + 4095
  system : e.getLsbD 44 = false → d.kind = .system
  data : e.getLsbD 44 = true → e.getLsbD 43 = false → d.kind = .data (e.getLsbD 41) (e.getLsbD 42)
  code : e.getLsbD 44 = true → e.getLsbD 43 = true → d.kind = .code (e.getLsbD 41) (e.getLsbD 42)

/-- `v` is the value of an r/m operand of width `w`: of the register, or of the memory bytes where the access is allowed. -/
def RmValue (s : State) (i : Instr) (p : Prefixes) (w : Width) (v : Quad) : Rm → Prop
  | .reg n => v = s.readReg p.rex.isSome w (rmField p n)
  | .mem m => ∃ pas, s.resolve (s.memOperand i p m).1 (s.memOperand i p m).2 w.bytes .read = .ok pas ∧ v = s.loadAt pas

/-- An r/m operand of width `w` can be written: a memory operand's access is allowed. -/
def RmReady (s : State) (i : Instr) (p : Prefixes) (w : Width) : Rm → Prop
  | .reg _ => True
  | .mem m => ∃ pas, s.resolve (s.memOperand i p m).1 (s.memOperand i p m).2 w.bytes .write = .ok pas

/-- An r/m operand of width `w` holds the value, and nothing else in the general registers and memory has changed. -/
def RmWritten (s t : State) (i : Instr) (p : Prefixes) (w : Width) (v : Quad) : Rm → Prop
  | .reg n => RegWritten s t p.rex.isSome w (rmField p n) v ∧ SameMem s t
  | .mem m => SameGprBut [] s t ∧
    ∀ pas, s.resolve (s.memOperand i p m).1 (s.memOperand i p m).2 w.bytes .write = .ok pas → StoredAt pas v s t

/-- The segment registers are the same but for one. -/
def SameSegsBut (g : SegReg) (s t : State) : Prop := ∀ g', g' ≠ g → t.seg g' = s.seg g'

/-- What a completed load of a segment register leaves alone: all but that register, memory, `pc` and `ss_shadow`. -/
structure SregLoaded (g : SegReg) (r : SegmentRegister) (s t : State) : Prop where
  loaded : t.seg g = r
  segs : SameSegsBut g s t
  gprs : SameGprBut [] s t
  flags : t.flags = s.flags
  crs : SameCrs s t
  drs : SameDrs s t
  fixed : SameFixed s t
  /-- `ss_shadow` (41_mov_sreg.md R200): false, but after a load of SS true, and a free value where the instruction before was one too. -/
  shadow : t.ssShadow =
    if g = .ss then (if s.afterMovSs = true ∨ s.ssShadow = true then Config.freeSsShadow s.draws else true) else false
  after : t.afterMovSs = decide (g = .ss)

/-! ## Data accesses -/

/-- A data access to memory: segment, effective address, number of bytes, direction. -/
structure DataAccess where
  seg   : SegReg
  ea    : Quad
  bytes : Nat
  type  : AccessType
  deriving DecidableEq, Repr

/-- The access of an r/m operand: none for a register. -/
def State.rmAccess (s : State) (i : Instr) (p : Prefixes) (n : Nat) (t : AccessType) : Rm → Option DataAccess
  | .reg _ => none
  | .mem m => some ⟨(s.memOperand i p m).1, (s.memOperand i p m).2, n, t⟩

/-- The access of a memory offset. -/
def State.moffsAccess (s : State) (p : Prefixes) (o : Moffs) (n : Nat) (t : AccessType) : Option DataAccess :=
  some ⟨(s.moffsOperand p o).1, (s.moffsOperand p o).2, n, t⟩

/-- The single data access of an instruction, by the table of 20_memory.md R64. -/
def State.dataAccess (s : State) (i : Instr) : Option DataAccess :=
  match i with
  | .movRm8R8 p rm _ | .movRm8R8Rex p rm _ | .movRm8Imm8 p rm _ | .movRm8Imm8Rex p rm _ => s.rmAccess i p 1 .write rm
  | .movRm16R16 p rm _ | .movRm16Imm16 p rm _ => s.rmAccess i p 2 .write rm
  | .movRm32R32 p rm _ | .movRm32Imm32 p rm _ => s.rmAccess i p 4 .write rm
  | .movRm64R64 p rm _ | .movRm64Imm32 p rm _ => s.rmAccess i p 8 .write rm
  | .movR8Rm8 p _ rm | .movR8Rm8Rex p _ rm => s.rmAccess i p 1 .read rm
  | .movR16Rm16 p _ rm => s.rmAccess i p 2 .read rm
  | .movR32Rm32 p _ rm => s.rmAccess i p 4 .read rm
  | .movR64Rm64 p _ rm => s.rmAccess i p 8 .read rm
  | .movRm16Sreg p rm _ | .movRm32Sreg p rm _ | .movRm64Sreg p rm _ => s.rmAccess i p 2 .write rm
  | .movSregRm16 p _ rm | .movSregRm64 p _ rm => s.rmAccess i p 2 .read rm
  | .movAlMoffs8 p o | .movAlMoffs8RexW p o => s.moffsAccess p o 1 .read
  | .movAxMoffs16 p o => s.moffsAccess p o 2 .read
  | .movEaxMoffs32 p o => s.moffsAccess p o 4 .read
  | .movRaxMoffs64 p o => s.moffsAccess p o 8 .read
  | .movMoffs8Al p o | .movMoffs8AlRexW p o => s.moffsAccess p o 1 .write
  | .movMoffs16Ax p o => s.moffsAccess p o 2 .write
  | .movMoffs32Eax p o => s.moffsAccess p o 4 .write
  | .movMoffs64Rax p o => s.moffsAccess p o 8 .write
  | .movR8Imm8 .. | .movR8Imm8Rex .. | .movR16Imm16 .. | .movR32Imm32 .. | .movR64Imm64 .. => none
  | .movR32Cr .. | .movR64Cr .. | .movR64Cr8 .. | .movCrR32 .. | .movCrR64 .. | .movCr8R64 .. => none
  | .movR32Dr .. | .movR64Dr .. | .movDrR32 .. | .movDrR64 .. => none

/-- An instruction reaches its data access: no LOCK prefix, and a segment register it may use (30_encoding.md R131). -/
def reachesAccess (i : Instr) : Prop := i.prefixes.lock = false ∧ sregUsable i = true

/-! ## When an access is allowed -/

/-- The access of `n` bytes at `ea` is inside the limit of an expand-down segment, or of any other (20_memory.md R68). -/
def InsideLimit (d : Descriptor) (ea n : Nat) : Prop :=
  match d.kind with
  | .data _ true => d.limit.toNat < ea ∧ ea + n - 1 ≤ (if d.big then 0xFFFFFFFF else 0xFFFF)
  | _ => ea + n - 1 ≤ d.limit.toNat

/-- Protected or compatibility mode. -/
def State.inProtected (s : State) : Prop := s.mode = .prot ∨ s.mode = .compat

/-- The access goes through a segment register that a NULL selector was loaded into (20_memory.md R67 (a), U5; entry 24). -/
def State.throughNull (s : State) (a : DataAccess) : Prop := (s.seg a.seg).hidden.null = true

/-- The kind of the segment allows the access: writable for a store (20_memory.md R67 (b)), readable for a load (entry 16). -/
def State.kindAllows (s : State) (a : DataAccess) : Prop :=
  if a.type = .write then segWritable (s.seg a.seg).hidden.d.kind = true else segReadable (s.seg a.seg).hidden.d.kind = true

/-- The linear address of byte `k` of an access (20_memory.md R68, R69). -/
def State.byteAddress (s : State) (a : DataAccess) (k : Nat) : Quad := s.linear a.seg a.ea k

/-- The segment checks allow an access (20_memory.md R67, R71). -/
def State.segmentAllows (s : State) (a : DataAccess) : Prop :=
  (s.mode = .long64 → ∀ k, k < a.bytes → s.canonical (s.byteAddress a k) = true) ∧
  (s.mode ≠ .long64 → InsideLimit (s.seg a.seg).hidden.d a.ea.toNat a.bytes ∧
    (s.inProtected → ¬ s.throughNull a ∧ s.kindAllows a))

/-- Alignment checking is enabled and counts: CPL 3 or virtual-8086 mode (20_memory.md R72). -/
def State.alignmentCounts (s : State) : Prop :=
  cr0AM s.cr0 = true ∧ flagsAC s.flags = true ∧ (s.mode = .v86 ∨ (s.mode ≠ .real ∧ s.cpl = 3))

/-- The alignment check allows an access (20_memory.md R72). -/
def State.alignmentAllows (s : State) (a : DataAccess) : Prop :=
  s.alignmentCounts → (s.byteAddress a 0).toNat % a.bytes = 0

/-! ## Names of control and debug registers -/

/-- The number of a control register (10_state.md R36). -/
def CtlReg.number : CtlReg → BitVec 4
  | .cr0 => 0
  | .cr2 => 2
  | .cr3 => 3
  | .cr4 => 4
  | .cr8 => 8

/-- The debug register that a number names, with CR4.DE = `de` (43_mov_dr.md R252). -/
def drTarget (de : Bool) (n : BitVec 3) : Option DbgReg :=
  match n.toNat with
  | 0 => some .dr0
  | 1 => some .dr1
  | 2 => some .dr2
  | 3 => some .dr3
  | 4 => if de then none else some .dr6
  | 5 => if de then none else some .dr7
  | 6 => some .dr6
  | _ => some .dr7

/-- MOV CR and MOV DR are allowed: real-address mode, or CPL 0 outside virtual-8086 mode (42_mov_cr.md R211, 43_mov_dr.md R251). -/
def State.supervisor (s : State) : Prop := s.mode ≠ .v86 ∧ (s.mode ≠ .real → s.cpl = 0)

/-- What a completed read of a control or debug register leaves alone, beside general registers. -/
structure SameButGprs (s t : State) : Prop where
  flags : SameFlagsButStatus s t
  segs : SameSegs s t
  crs : SameCrs s t
  drs : SameDrs s t
  fixed : SameFixed s t
  mem : SameMem s t

/-- What a completed write of a control register leaves alone, beside the control registers, LMA and the PDPT registers. -/
structure SameButCrs (s t : State) : Prop where
  gprs : SameGprBut [] s t
  flags : SameFlagsButStatus s t
  segs : SameSegs s t
  drs : SameDrs s t
  fixed : SameFixed s t
  lme : t.lme = s.lme
  mem : SameMem s t

/-- What a completed write of a debug register leaves alone, beside the debug registers. -/
structure SameButDrs (s t : State) : Prop where
  gprs : SameGprBut [] s t
  flags : SameFlagsButStatus s t
  segs : SameSegs s t
  crs : SameCrs s t
  fixed : SameFixed s t
  mem : SameMem s t

end Sys2Proof.Machine
end

