-- ==== Sys2Proof/Certificates/Slice0/Obligations.lean ====
section
/-! DEFINITION. The statements for the provers, in the order of OBLIGATIONS.json. A statement about a next state says what the rule
gives and what stays; a statement about a stop says when. Free values stand in them as the opaque constants of Config, so that a
statement holds whatever they are. -/

section

open Sys2Proof Sys2Proof.Machine

/-! ## Encoding -/

/-- Decoding what the encoder writes gives the instruction back, whatever bytes follow (30_encoding.md R90 to R117). -/
def Obligations.DecodeEncode : Prop :=
  ∀ (c : CodeSize) (i : Instr) (rest : List Byte), i.wellFormed c = true → decode c (encode i ++ rest) = .ok (i, rest)

/-- What the decoder answers is the row that the opcode, the prefixes and the mode select (R119): the bytes it takes are the prefixes of the
instruction in some order, then the opcode and the operands as the encoder writes them, and R92 counts them. -/
def Obligations.DecodedIsWellFormed : Prop :=
  ∀ (c : CodeSize) (bs : List Byte) (i : Instr) (rest : List Byte), decode c bs = .ok (i, rest) →
    i.prefixes.wf c = true ∧ i.rowWf c = true ∧
    ∃ pre, bs = pre ++ (encode i).drop i.prefixes.length ++ rest ∧ pre.Perm i.prefixes.encode ∧
      pre.length + ((encode i).drop i.prefixes.length).length = i.length

/-- The tables of operand size and address size (30_encoding.md R100, R101), and the register numbers that REX.R, REX.X and REX.B extend
(R104). -/
def Obligations.SizeTables : Prop :=
  ∀ p : Prefixes,
    ((∃ x, p.rex = some x ∧ x.w = true) → operandSize .c64 p = .b64) ∧
    ((∀ x, p.rex = some x → x.w = false) → operandSize .c64 p = if p.opsize = true then .b16 else .b32) ∧
    (operandSize .c32 p = if p.opsize = true then .b16 else .b32) ∧
    (operandSize .c16 p = if p.opsize = true then .b32 else .b16) ∧
    (addressSize .c64 p = if p.addrsize = true then .b32 else .b64) ∧
    (addressSize .c32 p = if p.addrsize = true then .b16 else .b32) ∧
    (addressSize .c16 p = if p.addrsize = true then .b32 else .b16) ∧
    (∀ f, p.rex = none → (regField p f).toNat = f.toNat ∧ (indexField p f).toNat = f.toNat ∧ (rmField p f).toNat = f.toNat) ∧
    (∀ f x, p.rex = some x → (regField p f).toNat = 8 * x.r.toNat + f.toNat ∧
      (indexField p f).toNat = 8 * x.x.toNat + f.toNat ∧ (rmField p f).toNat = 8 * x.b.toNat + f.toNat)

/-- The operating mode (10_state.md R34), the privilege level that the rules read (R33), and the code size that selects the row of the
tables of operand and address size (30_encoding.md R100, R101). A part without Intel 64 has neither 64-bit nor compatibility mode
(00_scope.md R6): that it reads EFER.LMA as 0 is how the model says so (entry 5). That CPL is a field of its own is the model's choice
(entry 8). -/
def Obligations.ModeRule : Prop :=
  ∀ s : State,
    let pe := s.cr0.getLsbD 0
    let vm := s.flags.getLsbD 17
    let lma := s.cfg.arch64 && s.lma
    let long := s.cs.hidden.d.long
    let size : CodeSize := if s.cs.hidden.d.big = true then .c32 else .c16
    (pe = false → s.mode = .real ∧ s.privilege = 0 ∧ s.codeSize = .c16) ∧
    (pe = true → lma = true → long = true → s.mode = .long64 ∧ s.privilege = s.cpl ∧ s.codeSize = .c64) ∧
    (pe = true → lma = true → long = false → s.mode = .compat ∧ s.privilege = s.cpl ∧ s.codeSize = size) ∧
    (pe = true → lma = false → vm = true → s.mode = .v86 ∧ s.privilege = 3 ∧ s.codeSize = .c16) ∧
    (pe = true → lma = false → vm = false → s.mode = .prot ∧ s.privilege = s.cpl ∧ s.codeSize = size) ∧
    (s.cfg.arch64 = false → s.ia32e = false ∧ s.codeSize ≠ .c64)

/-- Words written out in the examples of 40_mov_data.md to 43_mov_dr.md decode to the instructions they stand for. -/
def Obligations.DecodeSpecWords : Prop :=
  decode .c64 [0x88, 0xE1] = .ok (.movRm8R8 .empty (.reg 1) 4, []) ∧
  decode .c64 [0x44, 0x88, 0xC0] = .ok (.movRm8R8Rex { Prefixes.empty with rex := some ⟨false, true, false, false⟩ } (.reg 0) 0, []) ∧
  decode .c64 [0x48, 0x8B, 0x44, 0xCB, 0x08] =
    .ok (.movR64Rm64 { Prefixes.empty with rex := some ⟨true, false, false, false⟩ } 0 (.mem (.sib 3 1 3 (.d8 8))), []) ∧
  decode .c16 [0xA0, 0x00, 0x10] = .ok (.movAlMoffs8 .empty (.o16 0x1000), []) ∧
  decode .c64 [0xB4, 0x7F] = .ok (.movR8Imm8 .empty 4 0x7F, []) ∧
  decode .c64 [0xC7, 0x05, 0, 0, 0, 0, 0x78, 0x56, 0x34, 0x12] = .ok (.movRm32Imm32 .empty (.mem (.disp 0)) 0x12345678, []) ∧
  decode .c32 [0x66, 0x8C, 0xD8] = .ok (.movRm16Sreg { Prefixes.empty with opsize := true } (.reg 0) 3, []) ∧
  decode .c32 [0x8E, 0xD0] = .ok (.movSregRm16 .empty 2 (.reg 0), []) ∧
  decode .c32 [0x0F, 0x22, 0xD8] = .ok (.movCrR32 .empty 3 3 0, []) ∧
  decode .c64 [0x44, 0x0F, 0x20, 0xC0] =
    .ok (.movR64Cr8 { Prefixes.empty with rex := some ⟨false, true, false, false⟩ } 3 0, []) ∧
  decode .c32 [0x0F, 0x23, 0xC3] = .ok (.movDrR32 .empty 3 0 3, []) ∧
  decode .c64 [0x0F, 0x21, 0x38] = .ok (.movR64Dr .empty 0 7 0, [])

/-- An opcode that no row has is refused, a byte 40 to 4F outside 64-bit mode among them, and 0F with a second byte other than 20 to 23 (R119,
R121); so is C6 or C7 with a reg field other than 0, once its ModR/M part is read (R130, entry 26). The same of each where a REX byte stands
before it in 64-bit mode (R99). -/
def Obligations.DecodeRefusals : Prop :=
  (∀ (c : CodeSize) (p : Prefixes) (b : Byte) (bs : List Byte), legacyByte b = none → (c = .c64 → rexByte b = none) →
    b.toNat ∉ [0x0F, 0x88, 0x89, 0x8A, 0x8B, 0x8C, 0x8E, 0xA0, 0xA1, 0xA2, 0xA3, 0xC6, 0xC7] →
    ¬ (0xB0 ≤ b.toNat ∧ b.toNat ≤ 0xBF) → decodeFrom c p (b :: bs) = .error .notInSpec) ∧
  (∀ (c : CodeSize) (p : Prefixes) (b : Byte) (bs : List Byte), ¬ (0x20 ≤ b.toNat ∧ b.toNat ≤ 0x23) →
    decodeFrom c p (0x0F :: b :: bs) = .error .notInSpec) ∧
  (∀ (c : CodeSize) (p : Prefixes) (op : Byte) (bs : List Byte) (reg : BitVec 3) (rm : Rm) (rest : List Byte),
    op = 0xC6 ∨ op = 0xC7 → takeModRm (addressSize c p) bs = .ok (reg, rm, rest) → reg ≠ 0 →
    decodeFrom c p (op :: bs) = .error .notInSpec) ∧
  (∀ (p : Prefixes) (x : Rex) (b : Byte) (bs : List Byte), legacyByte b = none → rexByte b = none →
    b.toNat ∉ [0x0F, 0x88, 0x89, 0x8A, 0x8B, 0x8C, 0x8E, 0xA0, 0xA1, 0xA2, 0xA3, 0xC6, 0xC7] →
    ¬ (0xB0 ≤ b.toNat ∧ b.toNat ≤ 0xBF) → decodeFrom .c64 p (x.byte :: b :: bs) = .error .notInSpec) ∧
  (∀ (p : Prefixes) (x : Rex) (b : Byte) (bs : List Byte), ¬ (0x20 ≤ b.toNat ∧ b.toNat ≤ 0x23) →
    decodeFrom .c64 p (x.byte :: 0x0F :: b :: bs) = .error .notInSpec) ∧
  (∀ (p : Prefixes) (x : Rex) (op : Byte) (bs : List Byte) (reg : BitVec 3) (rm : Rm) (rest : List Byte),
    op = 0xC6 ∨ op = 0xC7 → takeModRm (addressSize .c64 p) bs = .ok (reg, rm, rest) → reg ≠ 0 →
    decodeFrom .c64 p (x.byte :: op :: bs) = .error .notInSpec)

/-- F2, F3, a second prefix of one group, and a REX byte that is not the last prefix are refused (R93, R98, R99; D12). -/
def Obligations.RefusedPrefixes : Prop :=
  ∀ (c : CodeSize) (p : Prefixes) (bs : List Byte),
    (∀ b : Byte, b = 0xF2 ∨ b = 0xF3 → decodeFrom c p (b :: bs) = .error .prefixNotModelled) ∧
    (p.lock = true → decodeFrom c p (0xF0 :: bs) = .error .prefixNotModelled) ∧
    (p.opsize = true → decodeFrom c p (0x66 :: bs) = .error .prefixNotModelled) ∧
    (p.addrsize = true → decodeFrom c p (0x67 :: bs) = .error .prefixNotModelled) ∧
    (p.seg.isSome = true → ∀ g, decodeFrom c p (segByte g :: bs) = .error .prefixNotModelled) ∧
    (∀ (x : Rex) (b : Byte), (legacyByte b).isSome = true ∨ (rexByte b).isSome = true →
      decodeFrom .c64 p (x.byte :: b :: bs) = .error .prefixNotModelled)

/-! ## Step -/

/-- When the bytes at `pc` decode to an instruction, a step is what `exec` does with it; `exec` itself moves `pc` past the instruction
(R27, R91). A step is refused instead in a state that breaks a condition of 70_reset_and_hazards.md R311 (entry 34), while DR7 arms a
breakpoint and the parameter says to refuse (43_mov_dr.md R263; entry 22), and where the next `pc` would not be canonical in 64-bit mode
(R27, D28). That the last goes before an exception of the instruction itself is the model's choice (entry 14). When the bytes are no
instruction of the 45 rows, or have a prefix that the spec does not cover, the step is refused for that (30_encoding.md R119, R132; D1,
D12; entry 26). -/
def Obligations.StepRunsDecoded : Prop :=
  ∀ s : State,
    (¬ LaunchConditions s → step s = .refused (.notInSpec .illFormedLaunch)) ∧
    (LaunchConditions s → s.cfg.breakpoints = .refuse → s.dr7.extractLsb' 0 8 ≠ 0 →
      step s = .refused (.notInSpec .armedBreakpoints)) ∧
    (LaunchConditions s → s.cfg.breakpoints = .inert ∨ s.dr7.extractLsb' 0 8 = 0 →
      decode s.codeSize (s.fetchBytes 15 0).1 = .error .notInSpec → step s = .refused (.notInSpec .encoding)) ∧
    (LaunchConditions s → s.cfg.breakpoints = .inert ∨ s.dr7.extractLsb' 0 8 = 0 →
      decode s.codeSize (s.fetchBytes 15 0).1 = .error .prefixNotModelled → step s = .refused .prefixNotModelled) ∧
    (∀ (i : Instr) (rest : List Byte), LaunchConditions s → s.cfg.breakpoints = .inert ∨ s.dr7.extractLsb' 0 8 = 0 →
      decode s.codeSize (s.fetchBytes 15 0).1 = .ok (i, rest) →
      (s.mode ≠ .long64 ∨ s.canonical (s.pc + BitVec.ofNat 64 i.length) = true → step s = exec i s) ∧
      (s.mode = .long64 → s.canonical (s.pc + BitVec.ofNat 64 i.length) = false → step s = .refused (.notInSpec .pcWrap)))

/-- When the bytes of a well-formed instruction stand at `pc`, a step is what `exec` does with it, whatever follows them, fetchable or
not; where the next `pc` would not be canonical in 64-bit mode it is refused (R27, D28), before an exception of the instruction itself, which
is the model's choice (entry 14). -/
def Obligations.StepRunsEncoded : Prop :=
  ∀ (s : State) (i : Instr), LaunchConditions s → i.wellFormed s.codeSize = true → s.breakpointsRefuse = false →
    (∀ (k : Nat) (b : Byte), (encode i)[k]? = some b → s.fetchByte k = .ok b) →
    (s.mode ≠ .long64 ∨ s.canonical (s.pc + BitVec.ofNat 64 i.length) = true → step s = exec i s) ∧
    (s.mode = .long64 → s.canonical (s.pc + BitVec.ofNat 64 i.length) = false → step s = .refused (.notInSpec .pcWrap))

/-- An instruction that needs a byte which cannot be fetched stops as that fetch does, and one that needs a 16th byte is refused
(30_encoding.md R92; D21). Bytes are fetched in rising order (20_memory.md R63): that of several which cannot be fetched the lowest therefore
decides the stop is the model's inference (entry 25, DEDUCED), since 60_exceptions.md R277, which gives the faults of a fetch, orders no two
bytes. That a byte which the instruction does not need raises nothing is entry 27. -/
def Obligations.StepFetchStops : Prop :=
  ∀ (s : State) (bs : List Byte), LaunchConditions s → s.breakpointsRefuse = false → bs.length ≤ 15 →
    (∀ (k : Nat) (b : Byte), bs[k]? = some b → s.fetchByte k = .ok b) → decode s.codeSize bs = .error .truncated →
    (∀ e, bs.length < 15 → s.fetchByte bs.length = .error e → step s = s.stop e) ∧
    (bs.length = 15 → step s = .refused .tooLong)

/-- Instruction byte `k` is the byte of memory at the translation of `la`, which is `pc + k` in 64-bit mode and `trunc_32(CS.base + pc + k)`
elsewhere (10_state.md R27, 20_memory.md R68, R69, R84). Outside 64-bit mode a byte beyond the CS limit raises #GP(0), and a translation
that faults raises #PF with the byte's linear address (60_exceptions.md R277). A byte past the top of the offset space or without canonical
form is refused (D28), and so is one without ordinary memory (20_memory.md R76). A step that cannot fetch its first byte stops so. That
these refusals go before the CS limit is the model's choice (entry 14), byte-by-byte fetching from the memory of data too (entry 27). -/
def Obligations.FetchByteRule : Prop :=
  ∀ (s : State) (k : Nat),
    let o := s.pc.toNat + k
    let top : Nat := match s.codeSize with
      | .c64 => 0xFFFFFFFFFFFFFFFF
      | .c32 => 0xFFFFFFFF
      | .c16 => 0xFFFF
    let la : Quad := if s.mode = .long64 then s.pc + BitVec.ofNat 64 k
      else ((s.cs.hidden.d.base + s.pc + BitVec.ofNat 64 k).setWidth 32).setWidth 64
    let kind : AccessKind := { type := .fetch, user := decide (s.mode = .v86 ∨ (s.mode ≠ .real ∧ s.cpl = 3)) }
    let allowed : Prop := o ≤ top ∧ (s.mode = .long64 → s.canonical la = true) ∧ (s.mode ≠ .long64 → InsideLimit s.cs.hidden.d o 1)
    (top < o → s.fetchByte k = .error (.refuse (.notInSpec .pcWrap))) ∧
    (o ≤ top → s.mode = .long64 → s.canonical la = false → s.fetchByte k = .error (.refuse (.notInSpec .pcWrap))) ∧
    (o ≤ top → s.mode ≠ .long64 → ¬ InsideLimit s.cs.hidden.d o 1 → s.fetchByte k = .error (.exc (.gp 0))) ∧
    (∀ c, allowed → s.translate la kind = .pageFault c → s.fetchByte k = .error (.exc (.pf c la))) ∧
    (∀ pa, allowed → s.translate la kind = .phys pa →
      s.fetchByte k = if s.backed pa.toNat = true then .ok (Memory.read s.mem pa.toNat) else .error (.refuse .unbackedMemory)) ∧
    (∀ e, LaunchConditions s → s.breakpointsRefuse = false → s.fetchByte 0 = .error e → step s = s.stop e)

/-! ## Reset and the invariant -/

/-- The state after reset is a well-formed launch state (70_reset_and_hazards.md R311), with what `LaunchWf` adds to that rule: the parameters
agree with themselves, EFER.LMA is EFER.LME and CR0.PG together, a part without Intel 64 has EFER.LME clear, memory is in canonical form.
The reset values are the model's choice (entries 1 and 2). -/
def Obligations.ResetLaunchWf : Prop := LaunchWf State.reset

/-- Every step from a well-formed launch state (70_reset_and_hazards.md R311), if it completes, leads to one. `LaunchWf` adds to that rule:
the parameters agree with themselves, EFER.LMA is EFER.LME and CR0.PG together, a part without Intel 64 has EFER.LME clear, memory is in
canonical form. That EFER.LMA follows CR0.PG is the model's choice (entry 13), and so is the width of `pc` after an instruction that changes
the mode (entry 14). -/
def Obligations.StepKeepsLaunchWf : Prop := ∀ s t : State, LaunchWf s → step s = .next t → LaunchWf t

/-- The reset values of the table of 10_state.md R52, which is for reference: the model's choice (entry 1), as the 0 of x[2] is, whose
signature R52 leaves to the part (entry 2). -/
def Obligations.ResetValues : Prop :=
  (∀ n, State.reset.x n = 0) ∧
  State.reset.mode = .real ∧ State.reset.cpl = 0 ∧ State.reset.pc = 0xFFF0 ∧ State.reset.flags = 2 ∧
  State.reset.cs.sel = 0xF000 ∧ State.reset.cs.hidden.d.base = 0xFFFF0000 ∧ State.reset.cs.hidden.d.limit = 0xFFFF ∧
  (∀ g, g ≠ .cs → (State.reset.seg g).sel = 0 ∧ (State.reset.seg g).hidden.d.base = 0 ∧
    (State.reset.seg g).hidden.d.limit = 0xFFFF) ∧
  (∀ g, (State.reset.seg g).hidden.d.present = true ∧ (State.reset.seg g).hidden.d.kind = .data true false) ∧
  State.reset.cr0 = 0x60000010 ∧ State.reset.cr2 = 0 ∧ State.reset.cr3 = 0 ∧ State.reset.cr4 = 0 ∧ State.reset.cr8 = 0 ∧
  State.reset.lma = false ∧ State.reset.dr0 = 0 ∧ State.reset.dr1 = 0 ∧ State.reset.dr2 = 0 ∧ State.reset.dr3 = 0 ∧
  State.reset.dr6 = 0xFFFF0FF0 ∧ State.reset.dr7 = 0x400 ∧ State.reset.gdtr.base = 0 ∧ State.reset.gdtr.limit = 0xFFFF ∧
  State.reset.ldtr.sel = 0 ∧ State.reset.ldtr.base = 0 ∧ State.reset.ldtr.limit = 0xFFFF ∧ State.reset.ssShadow = false ∧
  State.reset.linear .cs State.reset.pc 0 = 0xFFFFFFF0

/-! ## What holds of every instruction -/

/-- A completed instruction adds its length to `pc`, truncated to the width of the offset space (10_state.md R27). For an instruction that
changes the mode it is the width of the mode before it: the model's choice (entry 14, DEDUCED), since the spec does not say which counts. -/
def Obligations.NextPcRule : Prop :=
  ∀ (i : Instr) (s t : State), exec i s = .next t →
    t.pc = match s.codeSize with
      | .c64 => s.pc + BitVec.ofNat 64 i.length
      | .c32 => ((s.pc + BitVec.ofNat 64 i.length).setWidth 32).setWidth 64
      | .c16 => ((s.pc + BitVec.ofNat 64 i.length).setWidth 16).setWidth 64

/-- No instruction writes CPL, GDTR, LDTR, EFER.LME, the platform's map or the parameters (10_state.md R33, R35). -/
def Obligations.FixedStateKept : Prop := ∀ (i : Instr) (s t : State), exec i s = .next t → SameFixed s t ∧ t.lme = s.lme

/-- An instruction that faults has written nothing, `pc` included, and the inhibition after MOV SS has ended (60_exceptions.md R272, R291);
the error code is none exactly in real-address mode (R274), and that of #AC is 0 (R270). Raising an exception gives the fault of its mnemonic
and vector (R270), with the code that is raised for #GP, #SS, #NP, #AC outside real-address mode and for #PF, whose linear address it carries
too, and no code for #UD and #DB (R273, R275, R276); a stop is that fault, or the refusal that it names. R272 itself leaves open a store that spans two pages
(U12): that it writes nothing is the model's choice (entry 27, after D19). That no error code is carried in real-address mode is entry 32. -/
def Obligations.FaultRecord : Prop :=
  (∀ (i : Instr) (s : State) (f : Fault), exec i s = .fault f →
    f.state = { s with ssShadow := false, afterMovSs := false } ∧
    match f with
    | .gp code _ | .ss code _ | .np code _ => code = none ↔ s.mode = .real
    | .ac code _ => s.mode ≠ .real ∧ code = some 0
    | .pf _ _ _ | .ud _ | .db _ => True) ∧
  (∀ s : State,
    let u : State := { s with ssShadow := false, afterMovSs := false }
    s.raise .ud = .ud u ∧ s.raise .db = .db u ∧ (∀ c la, s.raise (.pf c la) = .pf c la u) ∧
    (∀ c, s.raise (.gp c) = .gp (if s.mode = .real then none else some c) u) ∧
    (∀ c, s.raise (.ss c) = .ss (if s.mode = .real then none else some c) u) ∧
    (∀ c, s.mode ≠ .real → s.raise (.np c) = .np (some c) u) ∧
    (∀ c, s.mode ≠ .real → s.raise (.ac c) = .ac (some c) u) ∧
    (∀ e, (s.raise e).vector = match e with
      | .db => 1
      | .ud => 6
      | .np _ => 11
      | .ss _ => 12
      | .gp _ => 13
      | .pf _ _ => 14
      | .ac _ => 17) ∧
    (∀ e, s.stop (.exc e) = .fault (s.raise e)) ∧ (∀ r, s.stop (.refuse r) = .refused r))

/-- The only refusal of an instruction itself is an access to an address without ordinary memory (20_memory.md R76, D20; entry 29). The
spec allows other refusals (30_encoding.md R132), which are the model's choice not to make: it follows a write that changes the mode, which
D14 would by default refuse (entry 13), and gives the #UD or #GP(0) that R130, U20 and U10 offer as inferred (entries 15, 16, 17). -/
def Obligations.OnlyUnbackedRefused : Prop :=
  ∀ (i : Instr) (s : State) (r : Refusal), exec i s = .refused r → r = .unbackedMemory

/-- `ss_shadow` after a completed instruction (41_mov_sreg.md R200): a load of SS sets it, any other instruction clears it, and after the
second or a later of consecutive loads of SS it is a free value, whatever the one before left (U6). `afterMovSs`, the model's own field, says
that the last completed instruction was a load of SS (entry 7). -/
def Obligations.SsShadowRule : Prop :=
  ∀ (i : Instr) (s t : State), exec i s = .next t →
    (t.afterMovSs = true ↔ loadedSreg i = some 2) ∧
    (loadedSreg i ≠ some 2 → t.ssShadow = false) ∧
    (loadedSreg i = some 2 → s.afterMovSs = false → s.ssShadow = false → t.ssShadow = true) ∧
    (loadedSreg i = some 2 → s.afterMovSs = true ∨ s.ssShadow = true → t.ssShadow = Config.freeSsShadow s.draws)

/-- No instruction completed at a privilege level other than 0 changes a control, debug or PDPT register (42_mov_cr.md R211,
43_mov_dr.md R251). -/
def Obligations.PrivilegedNeedsCpl0 : Prop :=
  ∀ (i : Instr) (s t : State), exec i s = .next t → s.privilege ≠ 0 → SameCrs s t ∧ SameDrs s t

/-- A LOCK prefix raises #UD on every row (30_encoding.md R95), but in virtual-8086 mode #GP(0) on MOV CR and MOV DR, whose list there has
nothing else (42_mov_cr.md R234, 43_mov_dr.md R260; entry 18). -/
def Obligations.LockIsUd : Prop :=
  ∀ (i : Instr) (s : State), i.prefixes.lock = true →
    exec i s = .fault (s.raise (if isCrDr i = true ∧ s.mode = .v86 then .gp 0 else .ud))

/-- The rows of 40_mov_data.md and 41_mov_sreg.md change no flag; MOV CR and MOV DR leave the six status flags at free values and every
other flag as it was (10_state.md R29). -/
def Obligations.FlagsRule : Prop :=
  ∀ (i : Instr) (s t : State), exec i s = .next t →
    (isCrDr i = false → t.flags = s.flags) ∧
    (isCrDr i = true → SameFlagsButStatus s t ∧
      flagsCF t.flags = (Config.freeFlags s.draws).getLsbD 0 ∧ flagsPF t.flags = (Config.freeFlags s.draws).getLsbD 1 ∧
      flagsAF t.flags = (Config.freeFlags s.draws).getLsbD 2 ∧ flagsZF t.flags = (Config.freeFlags s.draws).getLsbD 3 ∧
      flagsSF t.flags = (Config.freeFlags s.draws).getLsbD 4 ∧ flagsOF t.flags = (Config.freeFlags s.draws).getLsbD 5)

/-- A completed instruction changes no byte of memory but those that its store (20_memory.md R64) goes to; the load of a segment register
is left to the statements about it (41_mov_sreg.md R188). -/
def Obligations.MemoryFrame : Prop :=
  ∀ (i : Instr) (s t : State), exec i s = .next t →
    (∀ a, s.dataAccess i = some a → a.type = .write →
      ∀ pas, s.resolve a.seg a.ea a.bytes .write = .ok pas → SameMemBut pas s t) ∧
    ((∀ a, s.dataAccess i = some a → a.type ≠ .write) → loadedSreg i = none → SameMem s t)

/-! ## Registers and memory -/

/-- What reading a register gives, bit by bit: the low bits of the register, or bits 15:8 of x[n - 4] for AH, CH, DH, BH, the byte registers
4 to 7 without a REX prefix (10_state.md R22, R24, R25). -/
def Obligations.RegReadRule : Prop :=
  ∀ (s : State) (rex : Bool) (w : Width) (n : BitVec 4) (k : Nat),
    (s.readReg rex w n).getLsbD k =
      (decide (k < 8 * w.bytes) && (s.x (homeReg rex w n)).getLsbD (homeBit rex w n + k))

/-- What writing a register does, bit by bit (10_state.md R23 to R25), and that it changes nothing but general registers. That an 8- or
16-bit write keeps bits 63:32 outside 64-bit mode too is the model's choice (entry 23, DEDUCED): U14 would leave them free. -/
def Obligations.RegWriteRule : Prop :=
  ∀ (s : State) (rex : Bool) (w : Width) (n : BitVec 4) (v : Quad),
    RegWritten s (s.writeReg rex w n v) rex w n v ∧ SameSystem s (s.writeReg rex w n v) ∧ SameMem s (s.writeReg rex w n v)

/-- The byte order (20_memory.md R62): a load puts the byte at the k-th address in bits 8k+7 to 8k and zeros above, a store does the
reverse. -/
def Obligations.ByteOrder : Prop :=
  ∀ (s : State) (pas : List Nat), pas.length ≤ 8 →
    (∀ k (h : k < pas.length), (s.loadAt pas).extractLsb' (8 * k) 8 = Memory.read s.mem pas[k]) ∧
    (∀ k, 8 * pas.length ≤ k → (s.loadAt pas).getLsbD k = false) ∧
    (∀ v : Quad, StoredAt pas v s (s.storeAt pas v))

/-- Canonical form: bits 63 down to `LA_BITS - 1` are all equal (20_memory.md R70). -/
def Obligations.CanonicalRule : Prop :=
  ∀ (s : State) (la : Quad), s.canonical la = true ↔
    ∀ k, s.cfg.laBits - 1 ≤ k → k < 64 → la.getLsbD k = la.getLsbD (s.cfg.laBits - 1)

/-- The linear address of byte `k` of an access: `trunc_32(base + ea + k)` outside 64-bit mode (20_memory.md R68), `ea + k` in it, with the
base of FS and GS alone (R69); its translation, with user privilege at CPL 3, the identity while paging is off and the oracle's answer where
it is on and no answer is known (R74; entry 9). An access that every check allows, whose bytes all translate and are backed, is made at the
translated addresses (R66). -/
def Obligations.AccessCompletes : Prop :=
  ∀ (s : State) (a : DataAccess),
    (∀ k, s.mode ≠ .long64 →
      s.byteAddress a k = (((s.seg a.seg).hidden.d.base + a.ea + BitVec.ofNat 64 k).setWidth 32).setWidth 64) ∧
    (∀ k, s.mode = .long64 → s.byteAddress a k =
      (if a.seg = .fs ∨ a.seg = .gs then (s.seg a.seg).hidden.d.base else 0) + a.ea + BitVec.ofNat 64 k) ∧
    s.dataKind a.type = { type := a.type, user := decide (s.mode = .v86 ∨ (s.mode ≠ .real ∧ s.cpl = 3)) } ∧
    (∀ la kind, cr0PG s.cr0 = false ∨ s.mode = .real → s.translate la kind = .phys la) ∧
    (∀ la kind, cr0PG s.cr0 = true → s.mode ≠ .real → s.cfg.translations = [] →
      s.translate la kind = Config.translate s la kind) ∧
    ∀ pa : Nat → Quad, s.segmentAllows a → s.alignmentAllows a →
      (∀ k, k < a.bytes → s.translate (s.byteAddress a k) (s.dataKind a.type) = .phys (pa k)) →
      (∀ k, k < a.bytes → s.backed (pa k).toNat = true) →
      s.resolve a.seg a.ea a.bytes a.type = .ok ((List.range a.bytes).map fun k => (pa k).toNat)

/-- The segment checks outside 64-bit mode (20_memory.md R67): a NULL segment, a segment whose kind forbids the access, the limit. The model's
choices: an unreadable segment faults, which is inferred (entry 16); a NULL SS or CS counts (entry 24); and (a) and (b) go before the limit,
so that a store outside the limit of a read-only stack segment raises #GP(0) (entry 25). -/
def Obligations.SegmentCheckFaults : Prop :=
  ∀ (i : Instr) (s : State) (a : DataAccess), reachesAccess i → s.dataAccess i = some a → s.mode ≠ .long64 →
    (s.inProtected → s.throughNull a → exec i s = .fault (s.raise (.gp 0))) ∧
    (s.inProtected → ¬ s.kindAllows a → exec i s = .fault (s.raise (.gp 0))) ∧
    ((s.inProtected → ¬ s.throughNull a ∧ s.kindAllows a) →
      ¬ InsideLimit (s.seg a.seg).hidden.d a.ea.toNat a.bytes →
      exec i s = .fault (s.raise (if a.seg = .ss then .ss 0 else .gp 0)))

/-- In 64-bit mode an access with a byte whose address is not canonical raises #SS(0) through SS, else #GP(0)
(20_memory.md R69, R71). -/
def Obligations.NonCanonicalFaults : Prop :=
  ∀ (i : Instr) (s : State) (a : DataAccess) (k : Nat), reachesAccess i → s.dataAccess i = some a → s.mode = .long64 →
    k < a.bytes →
    s.canonical ((if a.seg = .fs ∨ a.seg = .gs then (s.seg a.seg).hidden.d.base else 0) + a.ea + BitVec.ofNat 64 k) = false →
    exec i s = .fault (s.raise (if a.seg = .ss then .ss 0 else .gp 0))

/-- An unaligned access that the segment checks allow raises #AC(0) where alignment checking counts (20_memory.md R72), whatever its
translation would answer: segment checks, then alignment, then translation is the order of R66 and R277, in which #AC before #PF and before
the refusal of unbacked memory is the model's choice (entry 25, U21). -/
def Obligations.AlignmentFaults : Prop :=
  ∀ (i : Instr) (s : State) (a : DataAccess), reachesAccess i → s.dataAccess i = some a → s.segmentAllows a →
    s.alignmentCounts → (s.byteAddress a 0).toNat % a.bytes ≠ 0 → exec i s = .fault (s.raise (.ac 0))

/-- An access that those checks allow raises #PF at the first byte whose translation faults, with that byte's linear address
(20_memory.md R66, R74, 60_exceptions.md R275), and is refused when a translated byte is not backed (R76). That of several bytes that fault
the lowest is reported is the model's choice (entry 25, U21). -/
def Obligations.TranslationStops : Prop :=
  ∀ (i : Instr) (s : State) (a : DataAccess), reachesAccess i → s.dataAccess i = some a → s.segmentAllows a →
    s.alignmentAllows a →
    (∀ (k : Nat) (c : BitVec 32), k < a.bytes →
      (∀ j, j < k → ∃ pa, s.translate (s.byteAddress a j) (s.dataKind a.type) = .phys pa) →
      s.translate (s.byteAddress a k) (s.dataKind a.type) = .pageFault c →
      exec i s = .fault (s.raise (.pf c (s.byteAddress a k)))) ∧
    (∀ (pa : Nat → Quad) (k : Nat),
      (∀ j, j < a.bytes → s.translate (s.byteAddress a j) (s.dataKind a.type) = .phys (pa j)) → k < a.bytes →
      s.backed (pa k).toNat = false → exec i s = .refused .unbackedMemory)

/-! ## Addresses -/

/-- The table of 16-bit addressing: BX, BP, SI, DI and the displacement added in 16 bits (30_encoding.md R109). -/
def Obligations.EffectiveAddress16 : Prop :=
  ∀ (s : State) (p : Prefixes) (next : Quad),
    (∀ (rm : BitVec 3) (d : Disp16),
      let bx := (s.x 3).setWidth 16
      let bp := (s.x 5).setWidth 16
      let si := (s.x 6).setWidth 16
      let di := (s.x 7).setWidth 16
      let sum : BitVec 16 := match rm.toNat with
        | 0 => bx + si
        | 1 => bx + di
        | 2 => bp + si
        | 3 => bp + di
        | 4 => si
        | 5 => di
        | 6 => bp
        | _ => bx
      let disp : BitVec 16 := match d with
        | .d0 => 0
        | .d8 b => b.signExtend 16
        | .d16 b => b
      s.effectiveAddress p next (.base16 rm d) =
        (if rm = 2 ∨ rm = 3 ∨ rm = 6 then .ss else .ds, (sum + disp).setWidth 64)) ∧
    ∀ d : BitVec 16, s.effectiveAddress p next (.abs16 d) = (.ds, d.setWidth 64)

/-- 32-bit addressing: base, scaled index and displacement added in 32 bits (30_encoding.md R110, R111); SS with base (E)SP or
(E)BP; no index term for number 4. -/
def Obligations.EffectiveAddress32 : Prop :=
  ∀ (s : State) (p : Prefixes) (next : Quad), addressSize s.codeSize p = .b32 →
    let r := fun n : BitVec 4 => (s.x n).setWidth 32
    let disp := fun d : Disp32 => match d with
      | .d0 => (0 : BitVec 32)
      | .d8 b => b.signExtend 32
      | .d32 b => b
    let idx := fun (scale : BitVec 2) (n : BitVec 4) => if n = 4 then 0 else r n * BitVec.ofNat 32 (2 ^ scale.toNat)
    (∀ (rm : BitVec 3) (d : Disp32), s.effectiveAddress p next (.base rm d) =
      (if rmField p rm = 5 then .ss else .ds, (r (rmField p rm) + disp d).setWidth 64)) ∧
    (∀ d : BitVec 32, s.effectiveAddress p next (.disp d) =
      (.ds, (if s.mode = .long64 then next.setWidth 32 + d else d).setWidth 64)) ∧
    (∀ (scale : BitVec 2) (index b : BitVec 3) (d : Disp32), s.effectiveAddress p next (.sib scale index b d) =
      (if rmField p b = 4 ∨ rmField p b = 5 then .ss else .ds,
        (r (rmField p b) + idx scale (indexField p index) + disp d).setWidth 64)) ∧
    (∀ (scale : BitVec 2) (index : BitVec 3) (d : BitVec 32), s.effectiveAddress p next (.sibNoBase scale index d) =
      (.ds, (idx scale (indexField p index) + d).setWidth 64))

/-- 64-bit addressing: the same in 64 bits with the displacement sign-extended; a displacement alone is relative to the next
instruction (30_encoding.md R110, R111). -/
def Obligations.EffectiveAddress64 : Prop :=
  ∀ (s : State) (p : Prefixes) (next : Quad), addressSize s.codeSize p = .b64 →
    let disp := fun d : Disp32 => match d with
      | .d0 => (0 : Quad)
      | .d8 b => b.signExtend 64
      | .d32 b => b.signExtend 64
    let idx := fun (scale : BitVec 2) (n : BitVec 4) => if n = 4 then 0 else s.x n * BitVec.ofNat 64 (2 ^ scale.toNat)
    (∀ (rm : BitVec 3) (d : Disp32), s.effectiveAddress p next (.base rm d) =
      (if rmField p rm = 5 then .ss else .ds, s.x (rmField p rm) + disp d)) ∧
    (∀ d : BitVec 32, s.effectiveAddress p next (.disp d) = (.ds, next + d.signExtend 64)) ∧
    (∀ (scale : BitVec 2) (index b : BitVec 3) (d : Disp32), s.effectiveAddress p next (.sib scale index b d) =
      (if rmField p b = 4 ∨ rmField p b = 5 then .ss else .ds, s.x (rmField p b) + idx scale (indexField p index) + disp d)) ∧
    (∀ (scale : BitVec 2) (index : BitVec 3) (d : BitVec 32), s.effectiveAddress p next (.sibNoBase scale index d) =
      (.ds, idx scale (indexField p index) + d.signExtend 64))

/-- The segment of a memory operand: the default or the override, of which 64-bit mode heeds only FS and GS (20_memory.md R65); a memory
offset is an unsigned offset in DS (30_encoding.md R115); a RIP-relative form counts from `pc + len` (R110). -/
def Obligations.OperandSegment : Prop :=
  ∀ (s : State) (p : Prefixes),
    (∀ dflt, p.seg = none → s.segmentOf p dflt = dflt) ∧
    (∀ dflt g, p.seg = some g → s.mode ≠ .long64 ∨ g = .fs ∨ g = .gs → s.segmentOf p dflt = g) ∧
    (∀ dflt g, p.seg = some g → s.mode = .long64 → g ≠ .fs → g ≠ .gs → s.segmentOf p dflt = dflt) ∧
    (∀ i m, s.memOperand i p m =
      (s.segmentOf p (s.effectiveAddress p (s.pc + BitVec.ofNat 64 i.length) m).1,
        (s.effectiveAddress p (s.pc + BitVec.ofNat 64 i.length) m).2)) ∧
    (∀ o, s.moffsOperand p (.o16 o) = (s.segmentOf p .ds, BitVec.ofNat 64 o.toNat)) ∧
    (∀ o, s.moffsOperand p (.o32 o) = (s.segmentOf p .ds, BitVec.ofNat 64 o.toNat)) ∧
    (∀ o, s.moffsOperand p (.o64 o) = (s.segmentOf p .ds, o))

/-! ## Moves between general registers, memory and immediates -/

/-- Opcodes 88 and 89 (the five rows `movRm8R8`, `movRm8R8Rex`, `movRm16R16`, `movRm32R32`, `movRm64R64`): without LOCK, and with a
memory destination whose access is allowed, the instruction completes, the destination holds the source register's value, and nothing
else of registers, memory, flags and system state changes (40_mov_data.md R140 to R144). -/
def Obligations.MovRmReg : Prop :=
  ∀ row ∈ movRmRegRows, ∀ (p : Prefixes) (rm : Rm) (reg : BitVec 3) (s : State), p.lock = false →
    RmReady s (row.2 p rm reg) p row.1 rm →
    ∃ t, exec (row.2 p rm reg) s = .next t ∧
      RmWritten s t (row.2 p rm reg) p row.1 (s.readReg p.rex.isSome row.1 (regField p reg)) rm ∧ SameSystem s t

/-- Opcodes 8A and 8B (the five rows `movR8Rm8`, `movR8Rm8Rex`, `movR16Rm16`, `movR32Rm32`, `movR64Rm64`): without LOCK, and with a source that
can be read, the instruction completes, the register holds the source's value, and nothing else of registers, memory, flags and system
state changes (40_mov_data.md R145 to R149). -/
def Obligations.MovRegRm : Prop :=
  ∀ row ∈ movRegRmRows, ∀ (p : Prefixes) (reg : BitVec 3) (rm : Rm) (s : State) (v : Quad), p.lock = false →
    RmValue s (row.2 p reg rm) p row.1 v rm →
    ∃ t, exec (row.2 p reg rm) s = .next t ∧ RegWritten s t p.rex.isSome row.1 (regField p reg) v ∧ SameMem s t ∧ SameSystem s t

/-- Opcodes A0 and A1 (the five rows `movAlMoffs8`, `movAlMoffs8RexW`, `movAxMoffs16`, `movEaxMoffs32`, `movRaxMoffs64`): the accumulator takes the
bytes at the offset (40_mov_data.md R150 to R154). -/
def Obligations.MovAccMoffs : Prop :=
  ∀ row ∈ movAccMoffsRows, ∀ (p : Prefixes) (o : Moffs) (s : State) (pas : List Nat), p.lock = false →
    s.resolve (s.moffsOperand p o).1 (s.moffsOperand p o).2 row.1.bytes .read = .ok pas →
    ∃ t, exec (row.2 p o) s = .next t ∧ RegWritten s t p.rex.isSome row.1 0 (s.loadAt pas) ∧ SameMem s t ∧ SameSystem s t

/-- Opcodes A2 and A3 (the five rows `movMoffs8Al`, `movMoffs8AlRexW`, `movMoffs16Ax`, `movMoffs32Eax`, `movMoffs64Rax`): the bytes at the offset take
the accumulator (40_mov_data.md R155 to R159). -/
def Obligations.MovMoffsAcc : Prop :=
  ∀ row ∈ movMoffsAccRows, ∀ (p : Prefixes) (o : Moffs) (s : State) (pas : List Nat), p.lock = false →
    s.resolve (s.moffsOperand p o).1 (s.moffsOperand p o).2 row.1.bytes .write = .ok pas →
    ∃ t, exec (row.2 p o) s = .next t ∧ StoredAt pas (s.readReg p.rex.isSome row.1 0) s t ∧ SameGprBut [] s t ∧ SameSystem s t

/-- Opcodes B0 to BF (the five rows `movR8Imm8`, `movR8Imm8Rex`, `movR16Imm16`, `movR32Imm32`, `movR64Imm64`): the register takes the immediate
(40_mov_data.md R160 to R164). -/
def Obligations.MovRegImm : Prop :=
  ∀ row ∈ movRegImmRows, ∀ (p : Prefixes) (r : BitVec 3) (v : Quad) (s : State), p.lock = false →
    ∃ t, exec (row.2 p r v) s = .next t ∧ RegWritten s t p.rex.isSome row.1 (rmField p r) v ∧ SameMem s t ∧ SameSystem s t

/-- Opcodes C6 /0 and C7 /0. With an immediate of the operand's width (the four rows `movRm8Imm8`, `movRm8Imm8Rex`, `movRm16Imm16`,
`movRm32Imm32`) r/m takes the immediate (40_mov_data.md R165 to R168); with `REX.W + C7 /0 id` (`movRm64Imm32`) r/m64 takes the immediate
sign-extended to 64 bits (R169). -/
def Obligations.MovRmImm : Prop :=
  (∀ row ∈ movRmImmRows, ∀ (p : Prefixes) (rm : Rm) (v : Quad) (s : State), p.lock = false →
    RmReady s (row.2 p rm v) p row.1 rm →
    ∃ t, exec (row.2 p rm v) s = .next t ∧ RmWritten s t (row.2 p rm v) p row.1 v rm ∧ SameSystem s t) ∧
  (∀ (p : Prefixes) (rm : Rm) (imm : BitVec 32) (s : State), p.lock = false → RmReady s (.movRm64Imm32 p rm imm) p .b64 rm →
    ∃ t, exec (.movRm64Imm32 p rm imm) s = .next t ∧
      RmWritten s t (.movRm64Imm32 p rm imm) p .b64 (BitVec.ofInt 64 imm.toInt) rm ∧ SameSystem s t)

/-! ## Segment registers -/

/-- Opcode 8C with a register destination (the three rows `movRm16Sreg`, `movRm32Sreg`, `movRm64Sreg`): the selector of any of the six
segment registers, zero-extended to the operand size; bits 31:16 of a 32-bit destination are a free value on the parts that leave them
undefined (41_mov_sreg.md R181 to R183; U2). -/
def Obligations.MovRegSreg : Prop :=
  ∀ row ∈ movRmSregRows, ∀ (p : Prefixes) (n sreg : BitVec 3) (g : SegReg) (s : State), p.lock = false → segOfCode sreg = some g →
    ∃ t v, exec (row.2 p (.reg n) sreg) s = .next t ∧ RegWritten s t p.rex.isSome row.1 (rmField p n) v ∧
      v = (if row.1 = .b32 ∧ s.cfg.sregUpperUndefined = true ∧ s.cfg.arch64 = false
        then (Config.freeSregUpper s.draws ++ (s.seg g).sel).setWidth 64 else (s.seg g).sel.setWidth 64) ∧
      SameMem s t ∧ SameSystem s t

/-- Opcode 8C with a memory destination (the same three rows): exactly the 2 bytes of the selector are stored, whatever the operand size
(41_mov_sreg.md R180). -/
def Obligations.MovMemSreg : Prop :=
  ∀ row ∈ movRmSregRows, ∀ (p : Prefixes) (m : MemForm) (sreg : BitVec 3) (g : SegReg) (s : State) (pas : List Nat),
    p.lock = false → segOfCode sreg = some g →
    s.resolve (s.memOperand (row.2 p (.mem m) sreg) p m).1 (s.memOperand (row.2 p (.mem m) sreg) p m).2 2 .write = .ok pas →
    ∃ t, exec (row.2 p (.mem m) sreg) s = .next t ∧ pas.length = 2 ∧ StoredAt pas ((s.seg g).sel.setWidth 64) s t ∧
      SameGprBut [] s t ∧ SameSystem s t

/-- Loading CS raises #UD (41_mov_sreg.md R184); so does a reg field of 6 or 7 with 8C or 8E, which is inferred (30_encoding.md R130;
entry 15). -/
def Obligations.SregUnusable : Prop :=
  ∀ (i : Instr) (s : State), i.prefixes.lock = false → sregUsable i = false → exec i s = .fault (s.raise .ud)

/-- Opcode 8E (both rows, `movSregRm16`, `movSregRm64`) in real-address and virtual-8086 mode: the selector is loaded without any check,
the base becomes 16 times it, the other attributes stay (41_mov_sreg.md R184, R185, R189). -/
def Obligations.MovSregReal : Prop :=
  ∀ row ∈ movSregRmRows, ∀ (p : Prefixes) (sreg : BitVec 3) (g : SegReg) (rm : Rm) (s : State) (v : Quad),
    s.mode = .real ∨ s.mode = .v86 → p.lock = false → segOfCode sreg = some g → g ≠ .cs → RmValue s (row p sreg rm) p .b16 v rm →
    ∃ t, exec (row p sreg rm) s = .next t ∧ SameMem s t ∧
      SregLoaded g
        { sel := v.setWidth 16
          hidden := { null := false, d := { (s.seg g).hidden.d with base := BitVec.ofNat 64 (16 * (v.setWidth 16).toNat) } } } s t

/-- A NULL selector (0000 to 0003) in protected, compatibility and 64-bit mode. DS, ES, FS, GS take it (41_mov_sreg.md R192). SS takes it
only in 64-bit mode with CPL below 3 and RPL = CPL, else #GP(0) (R190, R193). The hidden part but for `null` is left open (U5). -/
def Obligations.MovSregNull : Prop :=
  ∀ row ∈ movSregRmRows, ∀ (p : Prefixes) (sreg : BitVec 3) (g : SegReg) (rm : Rm) (s : State) (v : Quad),
    s.mode = .prot ∨ s.mode = .compat ∨ s.mode = .long64 → p.lock = false → segOfCode sreg = some g → g ≠ .cs →
    RmValue s (row p sreg rm) p .b16 v rm → (v.setWidth 16).toNat ≤ 3 →
    (g ≠ .ss ∨ (s.mode = .long64 ∧ s.cpl ≠ 3 ∧ v.setWidth 2 = s.cpl) →
      ∃ t d, exec (row p sreg rm) s = .next t ∧ SameMem s t ∧
        SregLoaded g { sel := v.setWidth 16, hidden := { null := true, d := d } } s t) ∧
    (g = .ss → s.mode ≠ .long64 ∨ s.cpl = 3 ∨ v.setWidth 2 ≠ s.cpl → exec (row p sreg rm) s = .fault (s.raise (.gp 0)))

/-- A non-NULL selector loaded into SS in protected, compatibility and 64-bit mode: the listing of 41_mov_sreg.md R190 with R193's
non-canonical case. A descriptor that passes every check is loaded, and the cells that set its accessed bit are written, the only memory
written; where that update page-faults or has no ordinary memory under it, nothing is loaded. Setting the bit in memory, with these stops, is
the model's choice among the two treatments of R188 (entry 11, PRESUMED); so is writing the cells that the oracle answers with as they stand,
with ordinary memory under them or not (entry 10). -/
def Obligations.MovSsDescriptor : Prop :=
  ∀ row ∈ movSregRmRows, ∀ (p : Prefixes) (rm : Rm) (s : State) (v : Quad),
    s.mode = .prot ∨ s.mode = .compat ∨ s.mode = .long64 → p.lock = false → RmValue s (row p 2 rm) p .b16 v rm →
    ¬ (v.setWidth 16).toNat ≤ 3 →
    let sel : Selector := v.setWidth 16
    let bad (d : Descriptor) : Prop := sel.setWidth 2 ≠ s.cpl ∨ segWritable d.kind = false ∨ d.dpl ≠ s.cpl
    (s.fetchDescriptor sel = .outsideLimits ∨ s.fetchDescriptor sel = .noncanonical →
      exec (row p 2 rm) s = .fault (s.raise (.gp (sel &&& 0xFFFC)))) ∧
    (∀ c la, s.fetchDescriptor sel = .pageFault c la → exec (row p 2 rm) s = .fault (s.raise (.pf c la))) ∧
    (∀ d acc, s.fetchDescriptor sel = .desc d acc → bad d →
      exec (row p 2 rm) s = .fault (s.raise (.gp (sel &&& 0xFFFC)))) ∧
    (s.fetchDescriptor sel = .unbacked → exec (row p 2 rm) s = .refused .unbackedMemory) ∧
    (∀ d acc, s.fetchDescriptor sel = .desc d acc → ¬ bad d → d.present = false →
      exec (row p 2 rm) s = .fault (s.raise (.ss (sel &&& 0xFFFC)))) ∧
    (∀ d c la, s.fetchDescriptor sel = .desc d (.pageFault c la) → ¬ bad d → d.present = true →
      exec (row p 2 rm) s = .fault (s.raise (.pf c la))) ∧
    (∀ d, s.fetchDescriptor sel = .desc d .unbacked → ¬ bad d → d.present = true →
      exec (row p 2 rm) s = .refused .unbackedMemory) ∧
    (∀ d cells, s.fetchDescriptor sel = .desc d (.store cells) → ¬ bad d → d.present = true →
      ∃ t, exec (row p 2 rm) s = .next t ∧ CellsWritten cells s t ∧
        SregLoaded .ss { sel := sel, hidden := { null := false, d := d } } s t)

/-- A non-NULL selector loaded into DS, ES, FS or GS in protected, compatibility and 64-bit mode: the listing of 41_mov_sreg.md R191, with
the error codes of R196. A descriptor that passes every check is loaded, and the cells that set its accessed bit are written, the only memory
written; where that update page-faults or has no ordinary memory under it, nothing is loaded. Setting the bit in memory, with these stops, is
the model's choice among the two treatments of R188 (entry 11, PRESUMED); so is writing the cells that the oracle answers with as they stand,
with ordinary memory under them or not (entry 10). -/
def Obligations.MovDataDescriptor : Prop :=
  ∀ row ∈ movSregRmRows, ∀ (p : Prefixes) (sreg : BitVec 3) (g : SegReg) (rm : Rm) (s : State) (v : Quad),
    s.mode = .prot ∨ s.mode = .compat ∨ s.mode = .long64 → p.lock = false → segOfCode sreg = some g → g ≠ .cs → g ≠ .ss →
    RmValue s (row p sreg rm) p .b16 v rm → ¬ (v.setWidth 16).toNat ≤ 3 →
    let sel : Selector := v.setWidth 16
    let bad (d : Descriptor) : Prop :=
      match d.kind with
      | .data _ _ | .code true false => d.dpl.toNat < (sel.setWidth 2).toNat ∨ d.dpl.toNat < s.cpl.toNat
      | .code true true => False
      | .code false _ | .system => True
    (s.fetchDescriptor sel = .outsideLimits ∨ s.fetchDescriptor sel = .noncanonical →
      exec (row p sreg rm) s = .fault (s.raise (.gp (sel &&& 0xFFFC)))) ∧
    (∀ c la, s.fetchDescriptor sel = .pageFault c la → exec (row p sreg rm) s = .fault (s.raise (.pf c la))) ∧
    (∀ d acc, s.fetchDescriptor sel = .desc d acc → bad d →
      exec (row p sreg rm) s = .fault (s.raise (.gp (sel &&& 0xFFFC)))) ∧
    (s.fetchDescriptor sel = .unbacked → exec (row p sreg rm) s = .refused .unbackedMemory) ∧
    (∀ d acc, s.fetchDescriptor sel = .desc d acc → ¬ bad d → d.present = false →
      exec (row p sreg rm) s = .fault (s.raise (.np (sel &&& 0xFFFC)))) ∧
    (∀ d c la, s.fetchDescriptor sel = .desc d (.pageFault c la) → ¬ bad d → d.present = true →
      exec (row p sreg rm) s = .fault (s.raise (.pf c la))) ∧
    (∀ d, s.fetchDescriptor sel = .desc d .unbacked → ¬ bad d → d.present = true →
      exec (row p sreg rm) s = .refused .unbackedMemory) ∧
    (∀ d cells, s.fetchDescriptor sel = .desc d (.store cells) → ¬ bad d → d.present = true →
      ∃ t, exec (row p sreg rm) s = .next t ∧ CellsWritten cells s t ∧
        SregLoaded g { sel := sel, hidden := { null := false, d := d } } s t)

/-- The descriptor tables in memory (41_mov_sreg.md R187, the optional instance; entry 10, PRESUMED), in every mode, with paging on or off. An
entry past the limit, or in an LDT that LDTR does not locate, is outside. In 64-bit mode an entry with a byte whose address is not
canonical is noncanonical. Otherwise its 8 bytes are read at their translations with supervisor privilege: a page fault is that of the lowest
byte that faults (the model's choice, entry 25), a byte without ordinary memory under it makes the entry unbacked (entry 29), and 8 backed
bytes give the fields. That a clear accessed bit is then to be set, in the entry's byte 5 at its translation for a supervisor write, which may
fault or be unbacked itself, is the model's choice among the two treatments of R188 (entry 11, PRESUMED). -/
def Obligations.TableDescriptor : Prop :=
  ∀ (s : State) (sel : Selector), s.cfg.descriptorSource = .table →
    let index := sel.toNat / 8
    let isLdt := sel.getLsbD 2
    let limit := if isLdt = true then s.ldtr.limit.toNat else s.gdtr.limit.toNat
    let base := if isLdt = true then s.ldtr.base else s.gdtr.base
    let addr (k : Nat) : Quad := if s.mode = .long64 ∨ s.mode = .compat then base + BitVec.ofNat 64 (8 * index + k)
      else ((base + BitVec.ofNat 64 (8 * index + k)).setWidth 32).setWidth 64
    let inside : Prop := 8 * index + 7 ≤ limit ∧ (isLdt = true → 3 < s.ldtr.sel.toNat)
    let canonical : Prop := s.mode = .long64 → ∀ k, k < 8 → s.canonical (addr k) = true
    let read (k : Nat) : Translation := s.translate (addr k) { type := .read, user := false }
    let write : Translation := s.translate (addr 5) { type := .write, user := false }
    (¬ inside → s.fetchDescriptor sel = .outsideLimits) ∧
    (inside → ¬ canonical → s.fetchDescriptor sel = .noncanonical) ∧
    (∀ (k : Nat) (c : BitVec 32), inside → canonical → k < 8 → (∀ j, j < k → ∃ pa, read j = .phys pa) → read k = .pageFault c →
      s.fetchDescriptor sel = .pageFault c (addr k)) ∧
    (∀ pa : Nat → Quad, inside → canonical → (∀ k, k < 8 → read k = .phys (pa k)) →
      ((∃ k, k < 8 ∧ s.backed (pa k).toNat = false) → s.fetchDescriptor sel = .unbacked) ∧
      (∀ e : Quad,
        (∀ k, k < 8 → s.backed (pa k).toNat = true ∧ Memory.read s.mem (pa k).toNat = e.extractLsb' (8 * k) 8) →
        ∃ d acc, s.fetchDescriptor sel = .desc d acc ∧ EntryFields e d ∧
          (e.getLsbD 40 = true → acc = .store []) ∧
          (∀ c, e.getLsbD 40 = false → write = .pageFault c → acc = .pageFault c (addr 5)) ∧
          (∀ wa, e.getLsbD 40 = false → write = .phys wa →
            acc = if s.backed wa.toNat = true then .store [(wa.toNat, e.extractLsb' 40 8 ||| 1)] else .unbacked)))

/-! ## Control registers -/

/-- The checks of the six rows of 42_mov_cr.md, in the order of R234: virtual-8086 mode; LOCK; a number that names no register, and CR4
on a part without it (U10; entry 17); CPL. -/
def Obligations.CrAccessChecks : Prop :=
  ∀ row ∈ movRegCrRows ++ movCrRegRows, ∀ (p : Prefixes) (mod : BitVec 2) (cr r : BitVec 3) (s : State),
    let i := row.2.1 p mod cr r
    let n := row.2.2 p cr
    (s.mode = .v86 → exec i s = .fault (s.raise (.gp 0))) ∧
    (s.mode ≠ .v86 → p.lock = true → exec i s = .fault (s.raise .ud)) ∧
    (s.mode ≠ .v86 → (n.toNat ∉ [0, 2, 3, 4, 8] ∨ (n = 4 ∧ s.cfg.hasCr4 = false)) → exec i s = .fault (s.raise .ud)) ∧
    (s.mode ≠ .v86 → s.mode ≠ .real → p.lock = false → n.toNat ∈ [0, 2, 3, 4, 8] → (n = 4 → s.cfg.hasCr4 = true) → s.cpl ≠ 0 →
      exec i s = .fault (s.raise (.gp 0)))

/-- A read of a control register (the three rows `movR32Cr`, `movR64Cr`, `movR64Cr8`): the general register takes it, 32 bits outside 64-bit
mode and 64 in it (42_mov_cr.md R214 to R216); the mod field, 66 and REX.W change nothing (R213). -/
def Obligations.MovRegCr : Prop :=
  ∀ row ∈ movRegCrRows, ∀ (p : Prefixes) (mod : BitVec 2) (cr r : BitVec 3) (s : State) (c : CtlReg), p.lock = false →
    s.supervisor → row.2.2 p cr = c.number → (c = .cr4 → s.cfg.hasCr4 = true) →
    ∃ t, exec (row.2.1 p mod cr r) s = .next t ∧ RegWritten s t p.rex.isSome row.1 (rmField p r) (s.cr c) ∧ SameButGprs s t

/-- A write of CR0 (`movCrR32`, `movCrR64`), 42_mov_cr.md R222 and R232: `n` is the value with reserved bits dropped and ET forced where it is
fixed; the invalid combinations and the ways to leave or enter IA-32e mode wrongly raise #GP(0); otherwise CR0 takes `n`, EFER.LMA
follows CR0.PG, and the PDPT is loaded where the write loads it (entries 12, 13, 19, 20). On a part without Intel 64 EFER.LME reads as 0
(00_scope.md R6; entry 5), so no such write enters IA-32e mode. -/
def Obligations.MovCr0 : Prop :=
  ∀ row ∈ movCrRegRows, ∀ (p : Prefixes) (mod : BitVec 2) (cr r : BitVec 3) (s : State) (n : Quad), p.lock = false → s.supervisor →
    row.2.2 p cr = 0 →
    (∀ k, k < 64 → n.getLsbD k =
      (((s.readReg p.rex.isSome row.1 (rmField p r)).getLsbD k && !s.cfg.cr0Reserved.getLsbD k) || (k == 4 && s.cfg.cr0EtFixed))) →
    let i := row.2.1 p mod cr r
    let bad : Prop :=
      (s.mode = .long64 ∧ s.cfg.cr0HighFaults = true ∧
        (s.readReg p.rex.isSome row.1 (rmField p r)).extractLsb' 32 32 ≠ 0) ∨
      (cr0PG n = true ∧ cr0PE n = false) ∨ (cr0CD n = false ∧ cr0NW n = true) ∨
      (∃ c ∈ s.cfg.cr0InvalidExtra, n &&& c.1 = c.2) ∨
      (s.mode = .long64 ∧ cr0PG s.cr0 = true ∧ cr0PG n = false) ∨
      (s.mode = .compat ∧ cr0PG s.cr0 = true ∧ cr0PG n = false ∧ cr4PCIDE s.cr4 = true) ∨
      ((s.cfg.arch64 && s.lme) = true ∧ cr0PG s.cr0 = false ∧ cr0PG n = true ∧ (cr4PAE s.cr4 = false ∨ s.cs.hidden.d.long = true))
    (bad → exec i s = .fault (s.raise (.gp 0))) ∧
    (¬ bad → ∀ e, s.pdptLoad (s.withCr0 n) false = .error e → exec i s = s.stop e) ∧
    (¬ bad → ∀ u, s.pdptLoad (s.withCr0 n) false = .ok u →
      ∃ t, exec i s = .next t ∧ t.cr0 = n ∧
        t.lma = (if cr0PG s.cr0 = cr0PG n then s.lma else s.cfg.arch64 && s.lme && cr0PG n) ∧ t.pdpte = u.pdpte ∧
        t.cr2 = s.cr2 ∧ t.cr3 = s.cr3 ∧ t.cr4 = s.cr4 ∧ t.cr8 = s.cr8 ∧ SameButCrs s t)

/-- A write of CR2 (`movCrR32`, `movCrR64`): CR2 takes the value, whatever it is (42_mov_cr.md R223). A write of CR8 (`movCr8R64`): a reserved
bit raises #GP(0), else CR8 takes the value (R219, R228). -/
def Obligations.MovCr2Cr8 : Prop :=
  (∀ row ∈ movCrRegRows, ∀ (p : Prefixes) (mod : BitVec 2) (cr r : BitVec 3) (s : State), p.lock = false → s.supervisor →
    row.2.2 p cr = 2 →
    ∃ t, exec (row.2.1 p mod cr r) s = .next t ∧ t.cr2 = s.readReg p.rex.isSome row.1 (rmField p r) ∧
      t.cr0 = s.cr0 ∧ t.cr3 = s.cr3 ∧ t.cr4 = s.cr4 ∧ t.cr8 = s.cr8 ∧ t.lma = s.lma ∧ t.pdpte = s.pdpte ∧ SameButCrs s t) ∧
  (∀ (p : Prefixes) (mod : BitVec 2) (r : BitVec 3) (s : State), p.lock = false → s.supervisor →
    let i : Instr := .movCr8R64 p mod r
    let v := s.x (rmField p r)
    (v &&& s.cfg.cr8Reserved ≠ 0 → exec i s = .fault (s.raise (.gp 0))) ∧
    (v &&& s.cfg.cr8Reserved = 0 →
      ∃ t, exec i s = .next t ∧ t.cr8 = v ∧
        t.cr0 = s.cr0 ∧ t.cr2 = s.cr2 ∧ t.cr3 = s.cr3 ∧ t.cr4 = s.cr4 ∧ t.lma = s.lma ∧ t.pdpte = s.pdpte ∧ SameButCrs s t))

/-- A write of CR3 (`movCrR32`, `movCrR64`), 42_mov_cr.md R224: bit 63 of the source is no part of the value while CR4.PCIDE = 1; a reserved bit
raises #GP(0) in IA-32e mode and is dropped elsewhere; the PDPT is loaded where the write loads it (entry 12). -/
def Obligations.MovCr3 : Prop :=
  ∀ row ∈ movCrRegRows, ∀ (p : Prefixes) (mod : BitVec 2) (cr r : BitVec 3) (s : State), p.lock = false → s.supervisor →
    row.2.2 p cr = 3 →
    let i := row.2.1 p mod cr r
    let v := s.readReg p.rex.isSome row.1 (rmField p r)
    let w := if cr4PCIDE s.cr4 = true then v &&& 0x7FFFFFFFFFFFFFFF else v
    let mask : Quad := s.cfg.cr3Reserved ||| 0x8000000000000000
    (s.mode = .long64 ∨ s.mode = .compat → w &&& mask ≠ 0 → exec i s = .fault (s.raise (.gp 0))) ∧
    (∀ n, n = (if s.mode = .long64 ∨ s.mode = .compat then w else w &&& ~~~mask) → n &&& mask = 0 →
      (∀ e, s.pdptLoad { s with cr3 := n } true = .error e → exec i s = s.stop e) ∧
      (∀ u, s.pdptLoad { s with cr3 := n } true = .ok u →
        ∃ t, exec i s = .next t ∧ t.cr3 = n ∧ t.pdpte = u.pdpte ∧
          t.cr0 = s.cr0 ∧ t.cr2 = s.cr2 ∧ t.cr4 = s.cr4 ∧ t.cr8 = s.cr8 ∧ t.lma = s.lma ∧ SameButCrs s t))

/-- A write of CR4 (`movCrR32`, `movCrR64`): the checks of 42_mov_cr.md R225 to R227 raise #GP(0); otherwise CR4 takes the value, and the
PDPT is loaded where the write loads it (entry 12). -/
def Obligations.MovCr4 : Prop :=
  ∀ row ∈ movCrRegRows, ∀ (p : Prefixes) (mod : BitVec 2) (cr r : BitVec 3) (s : State), p.lock = false → s.supervisor →
    row.2.2 p cr = 4 → s.cfg.hasCr4 = true →
    let i := row.2.1 p mod cr r
    let v := s.readReg p.rex.isSome row.1 (rmField p r)
    let ia32e : Prop := s.mode = .long64 ∨ s.mode = .compat
    let bad : Prop := v &&& s.cfg.cr4Reserved ≠ 0 ∨ (s.cfg.hasPcid = false ∧ cr4PCIDE v = true) ∨
      (s.cfg.hasDe = false ∧ cr4DE v = true) ∨ (¬ ia32e ∧ cr4PCIDE v = true) ∨
      (ia32e ∧ cr4PCIDE s.cr4 = false ∧ cr4PCIDE v = true ∧ s.cr3.setWidth 12 ≠ 0) ∨
      (ia32e ∧ cr4PAE s.cr4 = true ∧ cr4PAE v = false)
    (bad → exec i s = .fault (s.raise (.gp 0))) ∧
    (¬ bad → ∀ e, s.pdptLoad { s with cr4 := v } false = .error e → exec i s = s.stop e) ∧
    (¬ bad → ∀ u, s.pdptLoad { s with cr4 := v } false = .ok u →
      ∃ t, exec i s = .next t ∧ t.cr4 = v ∧ t.pdpte = u.pdpte ∧
        t.cr0 = s.cr0 ∧ t.cr2 = s.cr2 ∧ t.cr3 = s.cr3 ∧ t.cr8 = s.cr8 ∧ t.lma = s.lma ∧ SameButCrs s t)

/-- The load of the PDPT by a write that takes `s` to `u` (20_memory.md R75, 42_mov_cr.md R229; entry 12, PRESUMED): none when PAE paging is
not in use after the write, and none when the write is not of CR3 and changes none of CR0.PG, CR0.CD, CR0.NW, CR4.PAE, CR4.PGE, CR4.PSE,
CR4.SMEP; else four entries of 8 bytes, little-endian, from CR3[31:5] ∥ 00000, refused where a byte is not backed; in protected mode a
reserved bit in them raises #GP(0). -/
def Obligations.PdptLoadRule : Prop :=
  ∀ (s u : State) (isCr3 : Bool),
    let pae : Prop := u.cr0.getLsbD 31 = true ∧ u.cr4.getLsbD 5 = true ∧ (u.cfg.arch64 && u.lma) = false
    let causes : Prop := isCr3 = true ∨ (∃ n ∈ [29, 30, 31], s.cr0.getLsbD n ≠ u.cr0.getLsbD n) ∨
      ∃ n ∈ [4, 5, 7, 20], s.cr4.getLsbD n ≠ u.cr4.getLsbD n
    (¬ pae → s.pdptLoad u isCr3 = .ok u) ∧
    (¬ causes → s.pdptLoad u isCr3 = .ok u) ∧
    (∀ base : Nat, pae → causes → base = (u.cr3.extractLsb' 5 27).toNat * 32 →
      ((∃ k, k < 32 ∧ u.backed (base + k) = false) → s.pdptLoad u isCr3 = .error (.refuse .unbackedMemory)) ∧
      ((∀ k, k < 32 → u.backed (base + k) = true) →
        ∃ r, r = { u with pdpte := r.pdpte } ∧
          (∀ (k : Nat) (h : k < 4) (j : Nat), j < 8 →
            (r.pdpte[k]).extractLsb' (8 * j) 8 = Memory.read u.mem (base + 8 * k + j)) ∧
          s.pdptLoad u isCr3 =
            if s.mode = .prot ∧ Config.pdptReservedBitSet r = true then .error (.exc (.gp 0)) else .ok r))

/-! ## Debug registers -/

/-- The checks of the four rows of 43_mov_dr.md, in the order of R260: virtual-8086 mode; LOCK, REX.R, DR4 or DR5 with CR4.DE = 1; CPL;
general detect; bits 63:32 of DR6 and DR7. Two points of that order are the model's choice: that virtual-8086 mode gives #GP(0) also with
LOCK or REX.R (entry 18, U11), and that the #GP(0) of CPL goes before #DB (entry 25, D23). -/
def Obligations.DrAccessChecks : Prop :=
  ∀ row ∈ movRegDrRows ++ movDrRegRows, ∀ (p : Prefixes) (mod : BitVec 2) (n r : BitVec 3) (s : State),
    let i := row.2 p mod n r
    let de := s.cfg.hasCr4 && s.cfg.hasDe && cr4DE s.cr4
    (s.mode = .v86 → exec i s = .fault (s.raise (.gp 0))) ∧
    (s.mode ≠ .v86 → p.lock = true ∨ p.rexR = true ∨ drTarget de n = none → exec i s = .fault (s.raise .ud)) ∧
    (s.mode ≠ .v86 → s.mode ≠ .real → p.lock = false → p.rexR = false → drTarget de n ≠ none → s.cpl ≠ 0 →
      exec i s = .fault (s.raise (.gp 0))) ∧
    (s.supervisor → p.lock = false → p.rexR = false → drTarget de n ≠ none → dr7GD s.dr7 = true →
      exec i s = .fault (s.raise .db)) ∧
    (s.supervisor → p.lock = false → p.rexR = false → dr7GD s.dr7 = false → i = .movDrR64 p mod n r →
      drTarget de n = some .dr6 ∨ drTarget de n = some .dr7 → (s.x (rmField p r)).extractLsb' 32 32 ≠ 0 →
      exec i s = .fault (s.raise (.gp 0)))

/-- A read of a debug register (`movR32Dr`, `movR64Dr`): the general register takes it, 32 bits outside 64-bit mode and 64 in it
(43_mov_dr.md R254, R255). -/
def Obligations.MovRegDr : Prop :=
  ∀ row ∈ movRegDrRows, ∀ (p : Prefixes) (mod : BitVec 2) (n r : BitVec 3) (s : State) (d : DbgReg), p.lock = false → p.rexR = false →
    s.supervisor → dr7GD s.dr7 = false → drTarget (s.cfg.hasCr4 && s.cfg.hasDe && cr4DE s.cr4) n = some d →
    ∃ t, exec (row.2 p mod n r) s = .next t ∧ RegWritten s t p.rex.isSome row.1 (rmField p r) (s.dr d) ∧ SameButGprs s t

/-- A write of a debug register (`movDrR32`, `movDrR64`): the register takes the value, 32 bits zero-extended outside 64-bit mode; DR6 and DR7
keep their fixed bits (43_mov_dr.md R256, R257, R261; entry 21). -/
def Obligations.MovDrReg : Prop :=
  ∀ row ∈ movDrRegRows, ∀ (p : Prefixes) (mod : BitVec 2) (n r : BitVec 3) (s : State) (d : DbgReg), p.lock = false → p.rexR = false →
    s.supervisor → dr7GD s.dr7 = false → drTarget (s.cfg.hasCr4 && s.cfg.hasDe && cr4DE s.cr4) n = some d →
    let v := s.readReg p.rex.isSome row.1 (rmField p r)
    (d = .dr6 ∨ d = .dr7 → v.extractLsb' 32 32 = 0) →
    ∃ t, exec (row.2 p mod n r) s = .next t ∧ SameButDrs s t ∧ (∀ d', d' ≠ d → t.dr d' = s.dr d') ∧
      t.dr d = match d with
        | .dr6 => (v &&& ~~~s.cfg.dr6Fixed.mask) ||| s.cfg.dr6Fixed.value
        | .dr7 => (v &&& ~~~s.cfg.dr7Fixed.mask) ||| s.cfg.dr7Fixed.value
        | .dr0 | .dr1 | .dr2 | .dr3 => v

end
end

