-- ==== Sys2Proof/Laws/Memory.lean ====
section
/-! SUPPORT. Physical memory: every operation keeps the canonical form, and what a read gives after a write. -/

namespace Sys2Proof.Machine

/-- The canonical form of a listed cell before a memory. -/
theorem wf_cons {a : Nat} {v : Byte} {m : List Host.Cell} :
    Memory.wf ((a, v) :: m) = true ↔ v ≠ Memory.unlisted ∧ (∀ c ∈ m, a < c.1) ∧ Memory.wf m = true := by
  simp [Memory.wf, and_assoc]

/-- The cells after a write: the written one, or cells from before. -/
theorem mem_write {m : List Host.Cell} {a : Nat} {v : Byte} {c : Host.Cell} (h : c ∈ Memory.write m a v) : c = (a, v) ∨ c ∈ m := by
  induction m with
  | nil =>
    unfold Memory.write at h
    split at h <;> simp_all
  | cons d m ih =>
    obtain ⟨b, u⟩ := d
    unfold Memory.write at h
    split at h
    · split at h
      · exact .inr h
      · simpa using h
    · split at h
      · split at h
        · exact .inr (List.mem_cons_of_mem _ h)
        · rcases List.mem_cons.1 h with h | h
          · exact .inl h
          · exact .inr (List.mem_cons_of_mem _ h)
      · rcases List.mem_cons.1 h with h | h
        · exact .inr (h ▸ List.mem_cons_self)
        · rcases ih h with h | h
          · exact .inl h
          · exact .inr (List.mem_cons_of_mem _ h)

/-- A write keeps the canonical form. -/
theorem write_wf {m : List Host.Cell} (a : Nat) (v : Byte) (h : Memory.wf m = true) : Memory.wf (Memory.write m a v) = true := by
  induction m with
  | nil => unfold Memory.write; split <;> simp_all [Memory.wf]
  | cons d m ih =>
    obtain ⟨b, u⟩ := d
    obtain ⟨hu, hlt, hm⟩ := wf_cons.1 h
    unfold Memory.write
    split
    · rename_i hab
      split
      · exact h
      · rename_i hv
        refine wf_cons.2 ⟨hv, ?_, h⟩
        intro c hc
        rcases List.mem_cons.1 hc with rfl | hc
        · exact hab
        · exact lt_trans hab (hlt c hc)
    · split
      · rename_i hba
        split
        · exact hm
        · rename_i hv
          exact wf_cons.2 ⟨hv, hba ▸ hlt, hm⟩
      · rename_i hab hba
        refine wf_cons.2 ⟨hu, ?_, ih hm⟩
        intro c hc
        rcases mem_write hc with rfl | hc
        · show b < a
          omega
        · exact hlt c hc

/-- Writes in turn keep the canonical form. -/
theorem writeAll_wf {m : List Host.Cell} (cells : List Host.Cell) (h : Memory.wf m = true) : Memory.wf (Memory.writeAll m cells) = true := by
  induction cells generalizing m with
  | nil => exact h
  | cons c cells ih => exact ih (write_wf c.1 c.2 h)

/-- Memory at reset is in canonical form. -/
theorem reset_mem_wf : Memory.wf State.reset.mem = true := rfl

/-- An address below every listed one reads as unlisted. -/
theorem read_of_lt {m : List Host.Cell} {a : Nat} (h : ∀ c ∈ m, a < c.1) : Memory.read m a = Memory.unlisted := by
  induction m with
  | nil => rfl
  | cons d m ih =>
    obtain ⟨b, u⟩ := d
    have hb : a < b := h (b, u) List.mem_cons_self
    simp only [Memory.read, if_neg (Nat.ne_of_gt hb)]
    exact ih fun c hc => h c (List.mem_cons_of_mem _ hc)

/-- A read after a write to the same address gives the value written. -/
theorem read_write_self {m : List Host.Cell} (a : Nat) (v : Byte) (h : Memory.wf m = true) : Memory.read (Memory.write m a v) a = v := by
  induction m with
  | nil => unfold Memory.write; split <;> simp_all [Memory.read]
  | cons d m ih =>
    obtain ⟨b, u⟩ := d
    obtain ⟨hu, hlt, hm⟩ := wf_cons.1 h
    unfold Memory.write
    split
    · rename_i hab
      split
      · rename_i hv
        rw [hv]
        refine read_of_lt fun c hc => ?_
        rcases List.mem_cons.1 hc with rfl | hc
        · exact hab
        · exact lt_trans hab (hlt c hc)
      · simp [Memory.read]
    · split
      · rename_i hba
        split
        · rename_i hv
          rw [hv]
          exact read_of_lt (hba ▸ hlt)
        · simp [Memory.read]
      · rename_i hba
        simp [Memory.read, hba, ih hm]

/-- A write leaves every other address alone. -/
theorem read_write_ne {m : List Host.Cell} {a b : Nat} (v : Byte) (h : b ≠ a) : Memory.read (Memory.write m a v) b = Memory.read m b := by
  induction m with
  | nil => unfold Memory.write; split <;> simp [Memory.read, Ne.symm h]
  | cons d m ih =>
    obtain ⟨c, u⟩ := d
    unfold Memory.write
    split
    · split
      · rfl
      · simp [Memory.read, Ne.symm h]
    · split
      · rename_i hca
        split
        · simp [Memory.read, hca, Ne.symm h]
        · simp [Memory.read, hca, Ne.symm h]
      · simp only [Memory.read, ih]

/-- Writes in turn leave every address that is not among them alone. -/
theorem read_writeAll_of_notMem {m : List Host.Cell} {cells : List Host.Cell} {a : Nat} (h : a ∉ cells.map Prod.fst) :
    Memory.read (Memory.writeAll m cells) a = Memory.read m a := by
  induction cells generalizing m with
  | nil => rfl
  | cons c cells ih =>
    simp only [List.map_cons, List.mem_cons, not_or] at h
    exact (ih h.2).trans (read_write_ne _ h.1)

/-- Writes in turn to distinct addresses: each address reads as its value. -/
theorem read_writeAll_of_mem {m : List Host.Cell} {cells : List Host.Cell} {a : Nat} {v : Byte} (hm : Memory.wf m = true)
    (hn : (cells.map Prod.fst).Nodup) (h : (a, v) ∈ cells) : Memory.read (Memory.writeAll m cells) a = v := by
  induction cells generalizing m with
  | nil => simp at h
  | cons c cells ih =>
    simp only [List.map_cons, List.nodup_cons] at hn
    rcases List.mem_cons.1 h with rfl | h
    · exact (read_writeAll_of_notMem hn.1).trans (read_write_self a v hm)
    · exact ih (write_wf _ _ hm) hn.2 h

/-- The number of bytes of a value. -/
@[simp] theorem toBytes_length (n : Nat) (v : Quad) : (toBytes n v).length = n := by
  induction n generalizing v with
  | zero => rfl
  | succ n ih => simp [toBytes, ih]

/-- A byte of a value (20_memory.md R62). -/
theorem toBytes_get (n : Nat) (v : Quad) (k : Nat) (h : k < n) : (toBytes n v)[k]'(by simpa using h) = v.extractLsb' (8 * k) 8 := by
  induction n generalizing v k with
  | zero => omega
  | succ n ih =>
    cases k with
    | zero =>
      simp only [toBytes, List.getElem_cons_zero]
      ext j hj
      simp
    | succ k =>
      simp only [toBytes, List.getElem_cons_succ]
      rw [ih _ k (by omega)]
      ext j hj
      simp [Nat.mul_add, Nat.add_comm, Nat.add_left_comm]

/-- A store keeps the canonical form. -/
theorem storeAt_wf {s : State} (pas : List Nat) (v : Quad) (h : Memory.wf s.mem = true) : Memory.wf (s.storeAt pas v).mem = true :=
  writeAll_wf _ h

/-- A store leaves the bytes outside its addresses alone. -/
theorem storeAt_frame (s : State) (pas : List Nat) (v : Quad) : SameMemBut pas s (s.storeAt pas v) := by
  intro a ha
  refine read_writeAll_of_notMem ?_
  rw [List.map_fst_zip (by simp)]
  exact ha

/-- Placing an instruction byte keeps the canonical form. -/
theorem place_wf {s : State} (pa : Nat) (b : Byte) (h : Memory.wf s.mem = true) : Memory.wf (s.place pa b).mem = true := write_wf pa b h

/-- Placing instruction bytes keeps the canonical form. -/
theorem placeBytes_wf (s : State) (k : Nat) (bs : List Byte) {t : State} (h : Memory.wf t.mem = true) : Memory.wf (s.placeBytes k bs t).mem = true := by
  induction bs generalizing k t with
  | nil => exact h
  | cons b bs ih =>
    refine ih (k + 1) ?_
    split
    · exact place_wf _ _ h
    · exact h

/-- Placing an opcode-table word keeps the canonical form. -/
theorem withFetchWord_wf {s : State} (nbits w : Nat) (h : Memory.wf s.mem = true) : Memory.wf (s.withFetchWord nbits w).mem = true :=
  placeBytes_wf s 0 _ h

end Sys2Proof.Machine
end

