-- ==== Sys2Proof/Laws/State.lean ====
section
/-! SUPPORT. What each named update of the state does to each field. -/

namespace Sys2Proof.Machine

variable (s t : State) (i : Instr) (n : BitVec 4) (v : Quad) (g : SegReg) (r : SegmentRegister) (pas : List Nat) (b ls : Bool)


/-! ### setX -/

@[simp] theorem setX_gpr : (s.setX n v).gpr = s.gpr.set n.toNat v n.isLt := rfl
@[simp] theorem setX_pc : (s.setX n v).pc = s.pc := rfl
@[simp] theorem setX_flags : (s.setX n v).flags = s.flags := rfl
@[simp] theorem setX_es : (s.setX n v).es = s.es := rfl
@[simp] theorem setX_cs : (s.setX n v).cs = s.cs := rfl
@[simp] theorem setX_ss : (s.setX n v).ss = s.ss := rfl
@[simp] theorem setX_ds : (s.setX n v).ds = s.ds := rfl
@[simp] theorem setX_fs : (s.setX n v).fs = s.fs := rfl
@[simp] theorem setX_gs : (s.setX n v).gs = s.gs := rfl
@[simp] theorem setX_cpl : (s.setX n v).cpl = s.cpl := rfl
@[simp] theorem setX_cr0 : (s.setX n v).cr0 = s.cr0 := rfl
@[simp] theorem setX_cr2 : (s.setX n v).cr2 = s.cr2 := rfl
@[simp] theorem setX_cr3 : (s.setX n v).cr3 = s.cr3 := rfl
@[simp] theorem setX_cr4 : (s.setX n v).cr4 = s.cr4 := rfl
@[simp] theorem setX_cr8 : (s.setX n v).cr8 = s.cr8 := rfl
@[simp] theorem setX_lme : (s.setX n v).lme = s.lme := rfl
@[simp] theorem setX_lma : (s.setX n v).lma = s.lma := rfl
@[simp] theorem setX_dr0 : (s.setX n v).dr0 = s.dr0 := rfl
@[simp] theorem setX_dr1 : (s.setX n v).dr1 = s.dr1 := rfl
@[simp] theorem setX_dr2 : (s.setX n v).dr2 = s.dr2 := rfl
@[simp] theorem setX_dr3 : (s.setX n v).dr3 = s.dr3 := rfl
@[simp] theorem setX_dr6 : (s.setX n v).dr6 = s.dr6 := rfl
@[simp] theorem setX_dr7 : (s.setX n v).dr7 = s.dr7 := rfl
@[simp] theorem setX_gdtr : (s.setX n v).gdtr = s.gdtr := rfl
@[simp] theorem setX_ldtr : (s.setX n v).ldtr = s.ldtr := rfl
@[simp] theorem setX_pdpte : (s.setX n v).pdpte = s.pdpte := rfl
@[simp] theorem setX_ssShadow : (s.setX n v).ssShadow = s.ssShadow := rfl
@[simp] theorem setX_afterMovSs : (s.setX n v).afterMovSs = s.afterMovSs := rfl
@[simp] theorem setX_mem : (s.setX n v).mem = s.mem := rfl
@[simp] theorem setX_backing : (s.setX n v).backing = s.backing := rfl
@[simp] theorem setX_cfg : (s.setX n v).cfg = s.cfg := rfl
@[simp] theorem setX_draws : (s.setX n v).draws = s.draws := rfl
@[simp] theorem setX_caches : (s.setX n v).caches = s.caches := rfl

/-! ### drawFlags -/

@[simp] theorem drawFlags_gpr : (s.drawFlags).gpr = s.gpr := rfl
@[simp] theorem drawFlags_pc : (s.drawFlags).pc = s.pc := rfl
@[simp] theorem drawFlags_flags : (s.drawFlags).flags = withStatus s.flags (Config.freeFlags s.draws) := rfl
@[simp] theorem drawFlags_es : (s.drawFlags).es = s.es := rfl
@[simp] theorem drawFlags_cs : (s.drawFlags).cs = s.cs := rfl
@[simp] theorem drawFlags_ss : (s.drawFlags).ss = s.ss := rfl
@[simp] theorem drawFlags_ds : (s.drawFlags).ds = s.ds := rfl
@[simp] theorem drawFlags_fs : (s.drawFlags).fs = s.fs := rfl
@[simp] theorem drawFlags_gs : (s.drawFlags).gs = s.gs := rfl
@[simp] theorem drawFlags_cpl : (s.drawFlags).cpl = s.cpl := rfl
@[simp] theorem drawFlags_cr0 : (s.drawFlags).cr0 = s.cr0 := rfl
@[simp] theorem drawFlags_cr2 : (s.drawFlags).cr2 = s.cr2 := rfl
@[simp] theorem drawFlags_cr3 : (s.drawFlags).cr3 = s.cr3 := rfl
@[simp] theorem drawFlags_cr4 : (s.drawFlags).cr4 = s.cr4 := rfl
@[simp] theorem drawFlags_cr8 : (s.drawFlags).cr8 = s.cr8 := rfl
@[simp] theorem drawFlags_lme : (s.drawFlags).lme = s.lme := rfl
@[simp] theorem drawFlags_lma : (s.drawFlags).lma = s.lma := rfl
@[simp] theorem drawFlags_dr0 : (s.drawFlags).dr0 = s.dr0 := rfl
@[simp] theorem drawFlags_dr1 : (s.drawFlags).dr1 = s.dr1 := rfl
@[simp] theorem drawFlags_dr2 : (s.drawFlags).dr2 = s.dr2 := rfl
@[simp] theorem drawFlags_dr3 : (s.drawFlags).dr3 = s.dr3 := rfl
@[simp] theorem drawFlags_dr6 : (s.drawFlags).dr6 = s.dr6 := rfl
@[simp] theorem drawFlags_dr7 : (s.drawFlags).dr7 = s.dr7 := rfl
@[simp] theorem drawFlags_gdtr : (s.drawFlags).gdtr = s.gdtr := rfl
@[simp] theorem drawFlags_ldtr : (s.drawFlags).ldtr = s.ldtr := rfl
@[simp] theorem drawFlags_pdpte : (s.drawFlags).pdpte = s.pdpte := rfl
@[simp] theorem drawFlags_ssShadow : (s.drawFlags).ssShadow = s.ssShadow := rfl
@[simp] theorem drawFlags_afterMovSs : (s.drawFlags).afterMovSs = s.afterMovSs := rfl
@[simp] theorem drawFlags_mem : (s.drawFlags).mem = s.mem := rfl
@[simp] theorem drawFlags_backing : (s.drawFlags).backing = s.backing := rfl
@[simp] theorem drawFlags_cfg : (s.drawFlags).cfg = s.cfg := rfl
@[simp] theorem drawFlags_draws : (s.drawFlags).draws = s.draws := rfl
@[simp] theorem drawFlags_caches : (s.drawFlags).caches = s.caches := rfl

/-! ### storeAt -/

@[simp] theorem storeAt_gpr : (s.storeAt pas v).gpr = s.gpr := rfl
@[simp] theorem storeAt_pc : (s.storeAt pas v).pc = s.pc := rfl
@[simp] theorem storeAt_flags : (s.storeAt pas v).flags = s.flags := rfl
@[simp] theorem storeAt_es : (s.storeAt pas v).es = s.es := rfl
@[simp] theorem storeAt_cs : (s.storeAt pas v).cs = s.cs := rfl
@[simp] theorem storeAt_ss : (s.storeAt pas v).ss = s.ss := rfl
@[simp] theorem storeAt_ds : (s.storeAt pas v).ds = s.ds := rfl
@[simp] theorem storeAt_fs : (s.storeAt pas v).fs = s.fs := rfl
@[simp] theorem storeAt_gs : (s.storeAt pas v).gs = s.gs := rfl
@[simp] theorem storeAt_cpl : (s.storeAt pas v).cpl = s.cpl := rfl
@[simp] theorem storeAt_cr0 : (s.storeAt pas v).cr0 = s.cr0 := rfl
@[simp] theorem storeAt_cr2 : (s.storeAt pas v).cr2 = s.cr2 := rfl
@[simp] theorem storeAt_cr3 : (s.storeAt pas v).cr3 = s.cr3 := rfl
@[simp] theorem storeAt_cr4 : (s.storeAt pas v).cr4 = s.cr4 := rfl
@[simp] theorem storeAt_cr8 : (s.storeAt pas v).cr8 = s.cr8 := rfl
@[simp] theorem storeAt_lme : (s.storeAt pas v).lme = s.lme := rfl
@[simp] theorem storeAt_lma : (s.storeAt pas v).lma = s.lma := rfl
@[simp] theorem storeAt_dr0 : (s.storeAt pas v).dr0 = s.dr0 := rfl
@[simp] theorem storeAt_dr1 : (s.storeAt pas v).dr1 = s.dr1 := rfl
@[simp] theorem storeAt_dr2 : (s.storeAt pas v).dr2 = s.dr2 := rfl
@[simp] theorem storeAt_dr3 : (s.storeAt pas v).dr3 = s.dr3 := rfl
@[simp] theorem storeAt_dr6 : (s.storeAt pas v).dr6 = s.dr6 := rfl
@[simp] theorem storeAt_dr7 : (s.storeAt pas v).dr7 = s.dr7 := rfl
@[simp] theorem storeAt_gdtr : (s.storeAt pas v).gdtr = s.gdtr := rfl
@[simp] theorem storeAt_ldtr : (s.storeAt pas v).ldtr = s.ldtr := rfl
@[simp] theorem storeAt_pdpte : (s.storeAt pas v).pdpte = s.pdpte := rfl
@[simp] theorem storeAt_ssShadow : (s.storeAt pas v).ssShadow = s.ssShadow := rfl
@[simp] theorem storeAt_afterMovSs : (s.storeAt pas v).afterMovSs = s.afterMovSs := rfl
@[simp] theorem storeAt_mem : (s.storeAt pas v).mem = Memory.writeAll s.mem (pas.zip (toBytes pas.length v)) := rfl
@[simp] theorem storeAt_backing : (s.storeAt pas v).backing = s.backing := rfl
@[simp] theorem storeAt_cfg : (s.storeAt pas v).cfg = s.cfg := rfl
@[simp] theorem storeAt_draws : (s.storeAt pas v).draws = s.draws := rfl
@[simp] theorem storeAt_caches : (s.storeAt pas v).caches = s.caches := rfl

/-! ### withCr0 -/

@[simp] theorem withCr0_gpr : (s.withCr0 v).gpr = s.gpr := rfl
@[simp] theorem withCr0_pc : (s.withCr0 v).pc = s.pc := rfl
@[simp] theorem withCr0_flags : (s.withCr0 v).flags = s.flags := rfl
@[simp] theorem withCr0_es : (s.withCr0 v).es = s.es := rfl
@[simp] theorem withCr0_cs : (s.withCr0 v).cs = s.cs := rfl
@[simp] theorem withCr0_ss : (s.withCr0 v).ss = s.ss := rfl
@[simp] theorem withCr0_ds : (s.withCr0 v).ds = s.ds := rfl
@[simp] theorem withCr0_fs : (s.withCr0 v).fs = s.fs := rfl
@[simp] theorem withCr0_gs : (s.withCr0 v).gs = s.gs := rfl
@[simp] theorem withCr0_cpl : (s.withCr0 v).cpl = s.cpl := rfl
@[simp] theorem withCr0_cr0 : (s.withCr0 v).cr0 = v := rfl
@[simp] theorem withCr0_cr2 : (s.withCr0 v).cr2 = s.cr2 := rfl
@[simp] theorem withCr0_cr3 : (s.withCr0 v).cr3 = s.cr3 := rfl
@[simp] theorem withCr0_cr4 : (s.withCr0 v).cr4 = s.cr4 := rfl
@[simp] theorem withCr0_cr8 : (s.withCr0 v).cr8 = s.cr8 := rfl
@[simp] theorem withCr0_lme : (s.withCr0 v).lme = s.lme := rfl
@[simp] theorem withCr0_lma : (s.withCr0 v).lma = if cr0PG s.cr0 != cr0PG v then s.longEnabled && cr0PG v else s.lma := rfl
@[simp] theorem withCr0_dr0 : (s.withCr0 v).dr0 = s.dr0 := rfl
@[simp] theorem withCr0_dr1 : (s.withCr0 v).dr1 = s.dr1 := rfl
@[simp] theorem withCr0_dr2 : (s.withCr0 v).dr2 = s.dr2 := rfl
@[simp] theorem withCr0_dr3 : (s.withCr0 v).dr3 = s.dr3 := rfl
@[simp] theorem withCr0_dr6 : (s.withCr0 v).dr6 = s.dr6 := rfl
@[simp] theorem withCr0_dr7 : (s.withCr0 v).dr7 = s.dr7 := rfl
@[simp] theorem withCr0_gdtr : (s.withCr0 v).gdtr = s.gdtr := rfl
@[simp] theorem withCr0_ldtr : (s.withCr0 v).ldtr = s.ldtr := rfl
@[simp] theorem withCr0_pdpte : (s.withCr0 v).pdpte = s.pdpte := rfl
@[simp] theorem withCr0_ssShadow : (s.withCr0 v).ssShadow = s.ssShadow := rfl
@[simp] theorem withCr0_afterMovSs : (s.withCr0 v).afterMovSs = s.afterMovSs := rfl
@[simp] theorem withCr0_mem : (s.withCr0 v).mem = s.mem := rfl
@[simp] theorem withCr0_backing : (s.withCr0 v).backing = s.backing := rfl
@[simp] theorem withCr0_cfg : (s.withCr0 v).cfg = s.cfg := rfl
@[simp] theorem withCr0_draws : (s.withCr0 v).draws = s.draws := rfl
@[simp] theorem withCr0_caches : (s.withCr0 v).caches = s.caches := rfl

/-! ### withPdpt -/

@[simp] theorem withPdpt_gpr : (s.withPdpt).gpr = s.gpr := rfl
@[simp] theorem withPdpt_pc : (s.withPdpt).pc = s.pc := rfl
@[simp] theorem withPdpt_flags : (s.withPdpt).flags = s.flags := rfl
@[simp] theorem withPdpt_es : (s.withPdpt).es = s.es := rfl
@[simp] theorem withPdpt_cs : (s.withPdpt).cs = s.cs := rfl
@[simp] theorem withPdpt_ss : (s.withPdpt).ss = s.ss := rfl
@[simp] theorem withPdpt_ds : (s.withPdpt).ds = s.ds := rfl
@[simp] theorem withPdpt_fs : (s.withPdpt).fs = s.fs := rfl
@[simp] theorem withPdpt_gs : (s.withPdpt).gs = s.gs := rfl
@[simp] theorem withPdpt_cpl : (s.withPdpt).cpl = s.cpl := rfl
@[simp] theorem withPdpt_cr0 : (s.withPdpt).cr0 = s.cr0 := rfl
@[simp] theorem withPdpt_cr2 : (s.withPdpt).cr2 = s.cr2 := rfl
@[simp] theorem withPdpt_cr3 : (s.withPdpt).cr3 = s.cr3 := rfl
@[simp] theorem withPdpt_cr4 : (s.withPdpt).cr4 = s.cr4 := rfl
@[simp] theorem withPdpt_cr8 : (s.withPdpt).cr8 = s.cr8 := rfl
@[simp] theorem withPdpt_lme : (s.withPdpt).lme = s.lme := rfl
@[simp] theorem withPdpt_lma : (s.withPdpt).lma = s.lma := rfl
@[simp] theorem withPdpt_dr0 : (s.withPdpt).dr0 = s.dr0 := rfl
@[simp] theorem withPdpt_dr1 : (s.withPdpt).dr1 = s.dr1 := rfl
@[simp] theorem withPdpt_dr2 : (s.withPdpt).dr2 = s.dr2 := rfl
@[simp] theorem withPdpt_dr3 : (s.withPdpt).dr3 = s.dr3 := rfl
@[simp] theorem withPdpt_dr6 : (s.withPdpt).dr6 = s.dr6 := rfl
@[simp] theorem withPdpt_dr7 : (s.withPdpt).dr7 = s.dr7 := rfl
@[simp] theorem withPdpt_gdtr : (s.withPdpt).gdtr = s.gdtr := rfl
@[simp] theorem withPdpt_ldtr : (s.withPdpt).ldtr = s.ldtr := rfl
@[simp] theorem withPdpt_ssShadow : (s.withPdpt).ssShadow = s.ssShadow := rfl
@[simp] theorem withPdpt_afterMovSs : (s.withPdpt).afterMovSs = s.afterMovSs := rfl
@[simp] theorem withPdpt_mem : (s.withPdpt).mem = s.mem := rfl
@[simp] theorem withPdpt_backing : (s.withPdpt).backing = s.backing := rfl
@[simp] theorem withPdpt_cfg : (s.withPdpt).cfg = s.cfg := rfl
@[simp] theorem withPdpt_draws : (s.withPdpt).draws = s.draws := rfl
@[simp] theorem withPdpt_caches : (s.withPdpt).caches = s.caches := rfl

/-! ### atFault -/

@[simp] theorem atFault_gpr : (s.atFault).gpr = s.gpr := rfl
@[simp] theorem atFault_pc : (s.atFault).pc = s.pc := rfl
@[simp] theorem atFault_flags : (s.atFault).flags = s.flags := rfl
@[simp] theorem atFault_es : (s.atFault).es = s.es := rfl
@[simp] theorem atFault_cs : (s.atFault).cs = s.cs := rfl
@[simp] theorem atFault_ss : (s.atFault).ss = s.ss := rfl
@[simp] theorem atFault_ds : (s.atFault).ds = s.ds := rfl
@[simp] theorem atFault_fs : (s.atFault).fs = s.fs := rfl
@[simp] theorem atFault_gs : (s.atFault).gs = s.gs := rfl
@[simp] theorem atFault_cpl : (s.atFault).cpl = s.cpl := rfl
@[simp] theorem atFault_cr0 : (s.atFault).cr0 = s.cr0 := rfl
@[simp] theorem atFault_cr2 : (s.atFault).cr2 = s.cr2 := rfl
@[simp] theorem atFault_cr3 : (s.atFault).cr3 = s.cr3 := rfl
@[simp] theorem atFault_cr4 : (s.atFault).cr4 = s.cr4 := rfl
@[simp] theorem atFault_cr8 : (s.atFault).cr8 = s.cr8 := rfl
@[simp] theorem atFault_lme : (s.atFault).lme = s.lme := rfl
@[simp] theorem atFault_lma : (s.atFault).lma = s.lma := rfl
@[simp] theorem atFault_dr0 : (s.atFault).dr0 = s.dr0 := rfl
@[simp] theorem atFault_dr1 : (s.atFault).dr1 = s.dr1 := rfl
@[simp] theorem atFault_dr2 : (s.atFault).dr2 = s.dr2 := rfl
@[simp] theorem atFault_dr3 : (s.atFault).dr3 = s.dr3 := rfl
@[simp] theorem atFault_dr6 : (s.atFault).dr6 = s.dr6 := rfl
@[simp] theorem atFault_dr7 : (s.atFault).dr7 = s.dr7 := rfl
@[simp] theorem atFault_gdtr : (s.atFault).gdtr = s.gdtr := rfl
@[simp] theorem atFault_ldtr : (s.atFault).ldtr = s.ldtr := rfl
@[simp] theorem atFault_pdpte : (s.atFault).pdpte = s.pdpte := rfl
@[simp] theorem atFault_ssShadow : (s.atFault).ssShadow = false := rfl
@[simp] theorem atFault_afterMovSs : (s.atFault).afterMovSs = false := rfl
@[simp] theorem atFault_mem : (s.atFault).mem = s.mem := rfl
@[simp] theorem atFault_backing : (s.atFault).backing = s.backing := rfl
@[simp] theorem atFault_cfg : (s.atFault).cfg = s.cfg := rfl
@[simp] theorem atFault_draws : (s.atFault).draws = s.draws := rfl
@[simp] theorem atFault_caches : (s.atFault).caches = s.caches := rfl

/-! ### retire -/

@[simp] theorem retire_gpr : (retire i s t b ls).gpr = t.gpr := rfl
@[simp] theorem retire_pc : (retire i s t b ls).pc = s.nextPc i.length := rfl
@[simp] theorem retire_flags : (retire i s t b ls).flags = t.flags := rfl
@[simp] theorem retire_es : (retire i s t b ls).es = t.es := rfl
@[simp] theorem retire_cs : (retire i s t b ls).cs = t.cs := rfl
@[simp] theorem retire_ss : (retire i s t b ls).ss = t.ss := rfl
@[simp] theorem retire_ds : (retire i s t b ls).ds = t.ds := rfl
@[simp] theorem retire_fs : (retire i s t b ls).fs = t.fs := rfl
@[simp] theorem retire_gs : (retire i s t b ls).gs = t.gs := rfl
@[simp] theorem retire_cpl : (retire i s t b ls).cpl = t.cpl := rfl
@[simp] theorem retire_cr0 : (retire i s t b ls).cr0 = t.cr0 := rfl
@[simp] theorem retire_cr2 : (retire i s t b ls).cr2 = t.cr2 := rfl
@[simp] theorem retire_cr3 : (retire i s t b ls).cr3 = t.cr3 := rfl
@[simp] theorem retire_cr4 : (retire i s t b ls).cr4 = t.cr4 := rfl
@[simp] theorem retire_cr8 : (retire i s t b ls).cr8 = t.cr8 := rfl
@[simp] theorem retire_lme : (retire i s t b ls).lme = t.lme := rfl
@[simp] theorem retire_lma : (retire i s t b ls).lma = t.lma := rfl
@[simp] theorem retire_dr0 : (retire i s t b ls).dr0 = t.dr0 := rfl
@[simp] theorem retire_dr1 : (retire i s t b ls).dr1 = t.dr1 := rfl
@[simp] theorem retire_dr2 : (retire i s t b ls).dr2 = t.dr2 := rfl
@[simp] theorem retire_dr3 : (retire i s t b ls).dr3 = t.dr3 := rfl
@[simp] theorem retire_dr6 : (retire i s t b ls).dr6 = t.dr6 := rfl
@[simp] theorem retire_dr7 : (retire i s t b ls).dr7 = t.dr7 := rfl
@[simp] theorem retire_gdtr : (retire i s t b ls).gdtr = t.gdtr := rfl
@[simp] theorem retire_ldtr : (retire i s t b ls).ldtr = t.ldtr := rfl
@[simp] theorem retire_pdpte : (retire i s t b ls).pdpte = t.pdpte := rfl
@[simp] theorem retire_ssShadow : (retire i s t b ls).ssShadow = b := rfl
@[simp] theorem retire_afterMovSs : (retire i s t b ls).afterMovSs = ls := rfl
@[simp] theorem retire_mem : (retire i s t b ls).mem = t.mem := rfl
@[simp] theorem retire_backing : (retire i s t b ls).backing = t.backing := rfl
@[simp] theorem retire_cfg : (retire i s t b ls).cfg = t.cfg := rfl
@[simp] theorem retire_draws : (retire i s t b ls).draws = s.draws + 1 := rfl
@[simp] theorem retire_caches : (retire i s t b ls).caches = Config.cachesAfter i s := rfl

/-! ### setSeg -/

@[simp] theorem setSeg_gpr : (s.setSeg g r).gpr = s.gpr := by cases g <;> rfl
@[simp] theorem setSeg_pc : (s.setSeg g r).pc = s.pc := by cases g <;> rfl
@[simp] theorem setSeg_flags : (s.setSeg g r).flags = s.flags := by cases g <;> rfl
@[simp] theorem setSeg_cpl : (s.setSeg g r).cpl = s.cpl := by cases g <;> rfl
@[simp] theorem setSeg_cr0 : (s.setSeg g r).cr0 = s.cr0 := by cases g <;> rfl
@[simp] theorem setSeg_cr2 : (s.setSeg g r).cr2 = s.cr2 := by cases g <;> rfl
@[simp] theorem setSeg_cr3 : (s.setSeg g r).cr3 = s.cr3 := by cases g <;> rfl
@[simp] theorem setSeg_cr4 : (s.setSeg g r).cr4 = s.cr4 := by cases g <;> rfl
@[simp] theorem setSeg_cr8 : (s.setSeg g r).cr8 = s.cr8 := by cases g <;> rfl
@[simp] theorem setSeg_lme : (s.setSeg g r).lme = s.lme := by cases g <;> rfl
@[simp] theorem setSeg_lma : (s.setSeg g r).lma = s.lma := by cases g <;> rfl
@[simp] theorem setSeg_dr0 : (s.setSeg g r).dr0 = s.dr0 := by cases g <;> rfl
@[simp] theorem setSeg_dr1 : (s.setSeg g r).dr1 = s.dr1 := by cases g <;> rfl
@[simp] theorem setSeg_dr2 : (s.setSeg g r).dr2 = s.dr2 := by cases g <;> rfl
@[simp] theorem setSeg_dr3 : (s.setSeg g r).dr3 = s.dr3 := by cases g <;> rfl
@[simp] theorem setSeg_dr6 : (s.setSeg g r).dr6 = s.dr6 := by cases g <;> rfl
@[simp] theorem setSeg_dr7 : (s.setSeg g r).dr7 = s.dr7 := by cases g <;> rfl
@[simp] theorem setSeg_gdtr : (s.setSeg g r).gdtr = s.gdtr := by cases g <;> rfl
@[simp] theorem setSeg_ldtr : (s.setSeg g r).ldtr = s.ldtr := by cases g <;> rfl
@[simp] theorem setSeg_pdpte : (s.setSeg g r).pdpte = s.pdpte := by cases g <;> rfl
@[simp] theorem setSeg_ssShadow : (s.setSeg g r).ssShadow = s.ssShadow := by cases g <;> rfl
@[simp] theorem setSeg_afterMovSs : (s.setSeg g r).afterMovSs = s.afterMovSs := by cases g <;> rfl
@[simp] theorem setSeg_mem : (s.setSeg g r).mem = s.mem := by cases g <;> rfl
@[simp] theorem setSeg_backing : (s.setSeg g r).backing = s.backing := by cases g <;> rfl
@[simp] theorem setSeg_cfg : (s.setSeg g r).cfg = s.cfg := by cases g <;> rfl
@[simp] theorem setSeg_draws : (s.setSeg g r).draws = s.draws := by cases g <;> rfl
@[simp] theorem setSeg_caches : (s.setSeg g r).caches = s.caches := by cases g <;> rfl

/-- Reading a segment register after setting one. -/
theorem seg_setSeg (h : SegReg) : (s.setSeg g r).seg h = if h = g then r else s.seg h := by
  cases g <;> cases h <;> rfl

/-! ### writeReg8 and writeReg: only the general registers -/

@[simp] theorem writeReg8_pc (x : Bool) (w : Byte) : (s.writeReg8 x n w).pc = s.pc := by unfold State.writeReg8; split <;> rfl
@[simp] theorem writeReg8_flags (x : Bool) (w : Byte) : (s.writeReg8 x n w).flags = s.flags := by unfold State.writeReg8; split <;> rfl
@[simp] theorem writeReg8_es (x : Bool) (w : Byte) : (s.writeReg8 x n w).es = s.es := by unfold State.writeReg8; split <;> rfl
@[simp] theorem writeReg8_cs (x : Bool) (w : Byte) : (s.writeReg8 x n w).cs = s.cs := by unfold State.writeReg8; split <;> rfl
@[simp] theorem writeReg8_ss (x : Bool) (w : Byte) : (s.writeReg8 x n w).ss = s.ss := by unfold State.writeReg8; split <;> rfl
@[simp] theorem writeReg8_ds (x : Bool) (w : Byte) : (s.writeReg8 x n w).ds = s.ds := by unfold State.writeReg8; split <;> rfl
@[simp] theorem writeReg8_fs (x : Bool) (w : Byte) : (s.writeReg8 x n w).fs = s.fs := by unfold State.writeReg8; split <;> rfl
@[simp] theorem writeReg8_gs (x : Bool) (w : Byte) : (s.writeReg8 x n w).gs = s.gs := by unfold State.writeReg8; split <;> rfl
@[simp] theorem writeReg8_cpl (x : Bool) (w : Byte) : (s.writeReg8 x n w).cpl = s.cpl := by unfold State.writeReg8; split <;> rfl
@[simp] theorem writeReg8_cr0 (x : Bool) (w : Byte) : (s.writeReg8 x n w).cr0 = s.cr0 := by unfold State.writeReg8; split <;> rfl
@[simp] theorem writeReg8_cr2 (x : Bool) (w : Byte) : (s.writeReg8 x n w).cr2 = s.cr2 := by unfold State.writeReg8; split <;> rfl
@[simp] theorem writeReg8_cr3 (x : Bool) (w : Byte) : (s.writeReg8 x n w).cr3 = s.cr3 := by unfold State.writeReg8; split <;> rfl
@[simp] theorem writeReg8_cr4 (x : Bool) (w : Byte) : (s.writeReg8 x n w).cr4 = s.cr4 := by unfold State.writeReg8; split <;> rfl
@[simp] theorem writeReg8_cr8 (x : Bool) (w : Byte) : (s.writeReg8 x n w).cr8 = s.cr8 := by unfold State.writeReg8; split <;> rfl
@[simp] theorem writeReg8_lme (x : Bool) (w : Byte) : (s.writeReg8 x n w).lme = s.lme := by unfold State.writeReg8; split <;> rfl
@[simp] theorem writeReg8_lma (x : Bool) (w : Byte) : (s.writeReg8 x n w).lma = s.lma := by unfold State.writeReg8; split <;> rfl
@[simp] theorem writeReg8_dr0 (x : Bool) (w : Byte) : (s.writeReg8 x n w).dr0 = s.dr0 := by unfold State.writeReg8; split <;> rfl
@[simp] theorem writeReg8_dr1 (x : Bool) (w : Byte) : (s.writeReg8 x n w).dr1 = s.dr1 := by unfold State.writeReg8; split <;> rfl
@[simp] theorem writeReg8_dr2 (x : Bool) (w : Byte) : (s.writeReg8 x n w).dr2 = s.dr2 := by unfold State.writeReg8; split <;> rfl
@[simp] theorem writeReg8_dr3 (x : Bool) (w : Byte) : (s.writeReg8 x n w).dr3 = s.dr3 := by unfold State.writeReg8; split <;> rfl
@[simp] theorem writeReg8_dr6 (x : Bool) (w : Byte) : (s.writeReg8 x n w).dr6 = s.dr6 := by unfold State.writeReg8; split <;> rfl
@[simp] theorem writeReg8_dr7 (x : Bool) (w : Byte) : (s.writeReg8 x n w).dr7 = s.dr7 := by unfold State.writeReg8; split <;> rfl
@[simp] theorem writeReg8_gdtr (x : Bool) (w : Byte) : (s.writeReg8 x n w).gdtr = s.gdtr := by unfold State.writeReg8; split <;> rfl
@[simp] theorem writeReg8_ldtr (x : Bool) (w : Byte) : (s.writeReg8 x n w).ldtr = s.ldtr := by unfold State.writeReg8; split <;> rfl
@[simp] theorem writeReg8_pdpte (x : Bool) (w : Byte) : (s.writeReg8 x n w).pdpte = s.pdpte := by unfold State.writeReg8; split <;> rfl
@[simp] theorem writeReg8_ssShadow (x : Bool) (w : Byte) : (s.writeReg8 x n w).ssShadow = s.ssShadow := by unfold State.writeReg8; split <;> rfl
@[simp] theorem writeReg8_afterMovSs (x : Bool) (w : Byte) : (s.writeReg8 x n w).afterMovSs = s.afterMovSs := by unfold State.writeReg8; split <;> rfl
@[simp] theorem writeReg8_mem (x : Bool) (w : Byte) : (s.writeReg8 x n w).mem = s.mem := by unfold State.writeReg8; split <;> rfl
@[simp] theorem writeReg8_backing (x : Bool) (w : Byte) : (s.writeReg8 x n w).backing = s.backing := by unfold State.writeReg8; split <;> rfl
@[simp] theorem writeReg8_cfg (x : Bool) (w : Byte) : (s.writeReg8 x n w).cfg = s.cfg := by unfold State.writeReg8; split <;> rfl
@[simp] theorem writeReg8_draws (x : Bool) (w : Byte) : (s.writeReg8 x n w).draws = s.draws := by unfold State.writeReg8; split <;> rfl
@[simp] theorem writeReg8_caches (x : Bool) (w : Byte) : (s.writeReg8 x n w).caches = s.caches := by unfold State.writeReg8; split <;> rfl
@[simp] theorem writeReg_pc (x : Bool) (w : Width) : (s.writeReg x w n v).pc = s.pc := by cases w <;> simp [State.writeReg]
@[simp] theorem writeReg_flags (x : Bool) (w : Width) : (s.writeReg x w n v).flags = s.flags := by cases w <;> simp [State.writeReg]
@[simp] theorem writeReg_es (x : Bool) (w : Width) : (s.writeReg x w n v).es = s.es := by cases w <;> simp [State.writeReg]
@[simp] theorem writeReg_cs (x : Bool) (w : Width) : (s.writeReg x w n v).cs = s.cs := by cases w <;> simp [State.writeReg]
@[simp] theorem writeReg_ss (x : Bool) (w : Width) : (s.writeReg x w n v).ss = s.ss := by cases w <;> simp [State.writeReg]
@[simp] theorem writeReg_ds (x : Bool) (w : Width) : (s.writeReg x w n v).ds = s.ds := by cases w <;> simp [State.writeReg]
@[simp] theorem writeReg_fs (x : Bool) (w : Width) : (s.writeReg x w n v).fs = s.fs := by cases w <;> simp [State.writeReg]
@[simp] theorem writeReg_gs (x : Bool) (w : Width) : (s.writeReg x w n v).gs = s.gs := by cases w <;> simp [State.writeReg]
@[simp] theorem writeReg_cpl (x : Bool) (w : Width) : (s.writeReg x w n v).cpl = s.cpl := by cases w <;> simp [State.writeReg]
@[simp] theorem writeReg_cr0 (x : Bool) (w : Width) : (s.writeReg x w n v).cr0 = s.cr0 := by cases w <;> simp [State.writeReg]
@[simp] theorem writeReg_cr2 (x : Bool) (w : Width) : (s.writeReg x w n v).cr2 = s.cr2 := by cases w <;> simp [State.writeReg]
@[simp] theorem writeReg_cr3 (x : Bool) (w : Width) : (s.writeReg x w n v).cr3 = s.cr3 := by cases w <;> simp [State.writeReg]
@[simp] theorem writeReg_cr4 (x : Bool) (w : Width) : (s.writeReg x w n v).cr4 = s.cr4 := by cases w <;> simp [State.writeReg]
@[simp] theorem writeReg_cr8 (x : Bool) (w : Width) : (s.writeReg x w n v).cr8 = s.cr8 := by cases w <;> simp [State.writeReg]
@[simp] theorem writeReg_lme (x : Bool) (w : Width) : (s.writeReg x w n v).lme = s.lme := by cases w <;> simp [State.writeReg]
@[simp] theorem writeReg_lma (x : Bool) (w : Width) : (s.writeReg x w n v).lma = s.lma := by cases w <;> simp [State.writeReg]
@[simp] theorem writeReg_dr0 (x : Bool) (w : Width) : (s.writeReg x w n v).dr0 = s.dr0 := by cases w <;> simp [State.writeReg]
@[simp] theorem writeReg_dr1 (x : Bool) (w : Width) : (s.writeReg x w n v).dr1 = s.dr1 := by cases w <;> simp [State.writeReg]
@[simp] theorem writeReg_dr2 (x : Bool) (w : Width) : (s.writeReg x w n v).dr2 = s.dr2 := by cases w <;> simp [State.writeReg]
@[simp] theorem writeReg_dr3 (x : Bool) (w : Width) : (s.writeReg x w n v).dr3 = s.dr3 := by cases w <;> simp [State.writeReg]
@[simp] theorem writeReg_dr6 (x : Bool) (w : Width) : (s.writeReg x w n v).dr6 = s.dr6 := by cases w <;> simp [State.writeReg]
@[simp] theorem writeReg_dr7 (x : Bool) (w : Width) : (s.writeReg x w n v).dr7 = s.dr7 := by cases w <;> simp [State.writeReg]
@[simp] theorem writeReg_gdtr (x : Bool) (w : Width) : (s.writeReg x w n v).gdtr = s.gdtr := by cases w <;> simp [State.writeReg]
@[simp] theorem writeReg_ldtr (x : Bool) (w : Width) : (s.writeReg x w n v).ldtr = s.ldtr := by cases w <;> simp [State.writeReg]
@[simp] theorem writeReg_pdpte (x : Bool) (w : Width) : (s.writeReg x w n v).pdpte = s.pdpte := by cases w <;> simp [State.writeReg]
@[simp] theorem writeReg_ssShadow (x : Bool) (w : Width) : (s.writeReg x w n v).ssShadow = s.ssShadow := by cases w <;> simp [State.writeReg]
@[simp] theorem writeReg_afterMovSs (x : Bool) (w : Width) : (s.writeReg x w n v).afterMovSs = s.afterMovSs := by cases w <;> simp [State.writeReg]
@[simp] theorem writeReg_mem (x : Bool) (w : Width) : (s.writeReg x w n v).mem = s.mem := by cases w <;> simp [State.writeReg]
@[simp] theorem writeReg_backing (x : Bool) (w : Width) : (s.writeReg x w n v).backing = s.backing := by cases w <;> simp [State.writeReg]
@[simp] theorem writeReg_cfg (x : Bool) (w : Width) : (s.writeReg x w n v).cfg = s.cfg := by cases w <;> simp [State.writeReg]
@[simp] theorem writeReg_draws (x : Bool) (w : Width) : (s.writeReg x w n v).draws = s.draws := by cases w <;> simp [State.writeReg]
@[simp] theorem writeReg_caches (x : Bool) (w : Width) : (s.writeReg x w n v).caches = s.caches := by cases w <;> simp [State.writeReg]

/-! ### loadSegReal: only the segment registers -/

@[simp] theorem loadSegReal_gpr (w : Selector) : (s.loadSegReal g w).gpr = s.gpr := by simp [State.loadSegReal]
@[simp] theorem loadSegReal_pc (w : Selector) : (s.loadSegReal g w).pc = s.pc := by simp [State.loadSegReal]
@[simp] theorem loadSegReal_flags (w : Selector) : (s.loadSegReal g w).flags = s.flags := by simp [State.loadSegReal]
@[simp] theorem loadSegReal_cpl (w : Selector) : (s.loadSegReal g w).cpl = s.cpl := by simp [State.loadSegReal]
@[simp] theorem loadSegReal_cr0 (w : Selector) : (s.loadSegReal g w).cr0 = s.cr0 := by simp [State.loadSegReal]
@[simp] theorem loadSegReal_cr2 (w : Selector) : (s.loadSegReal g w).cr2 = s.cr2 := by simp [State.loadSegReal]
@[simp] theorem loadSegReal_cr3 (w : Selector) : (s.loadSegReal g w).cr3 = s.cr3 := by simp [State.loadSegReal]
@[simp] theorem loadSegReal_cr4 (w : Selector) : (s.loadSegReal g w).cr4 = s.cr4 := by simp [State.loadSegReal]
@[simp] theorem loadSegReal_cr8 (w : Selector) : (s.loadSegReal g w).cr8 = s.cr8 := by simp [State.loadSegReal]
@[simp] theorem loadSegReal_lme (w : Selector) : (s.loadSegReal g w).lme = s.lme := by simp [State.loadSegReal]
@[simp] theorem loadSegReal_lma (w : Selector) : (s.loadSegReal g w).lma = s.lma := by simp [State.loadSegReal]
@[simp] theorem loadSegReal_dr0 (w : Selector) : (s.loadSegReal g w).dr0 = s.dr0 := by simp [State.loadSegReal]
@[simp] theorem loadSegReal_dr1 (w : Selector) : (s.loadSegReal g w).dr1 = s.dr1 := by simp [State.loadSegReal]
@[simp] theorem loadSegReal_dr2 (w : Selector) : (s.loadSegReal g w).dr2 = s.dr2 := by simp [State.loadSegReal]
@[simp] theorem loadSegReal_dr3 (w : Selector) : (s.loadSegReal g w).dr3 = s.dr3 := by simp [State.loadSegReal]
@[simp] theorem loadSegReal_dr6 (w : Selector) : (s.loadSegReal g w).dr6 = s.dr6 := by simp [State.loadSegReal]
@[simp] theorem loadSegReal_dr7 (w : Selector) : (s.loadSegReal g w).dr7 = s.dr7 := by simp [State.loadSegReal]
@[simp] theorem loadSegReal_gdtr (w : Selector) : (s.loadSegReal g w).gdtr = s.gdtr := by simp [State.loadSegReal]
@[simp] theorem loadSegReal_ldtr (w : Selector) : (s.loadSegReal g w).ldtr = s.ldtr := by simp [State.loadSegReal]
@[simp] theorem loadSegReal_pdpte (w : Selector) : (s.loadSegReal g w).pdpte = s.pdpte := by simp [State.loadSegReal]
@[simp] theorem loadSegReal_ssShadow (w : Selector) : (s.loadSegReal g w).ssShadow = s.ssShadow := by simp [State.loadSegReal]
@[simp] theorem loadSegReal_afterMovSs (w : Selector) : (s.loadSegReal g w).afterMovSs = s.afterMovSs := by simp [State.loadSegReal]
@[simp] theorem loadSegReal_mem (w : Selector) : (s.loadSegReal g w).mem = s.mem := by simp [State.loadSegReal]
@[simp] theorem loadSegReal_backing (w : Selector) : (s.loadSegReal g w).backing = s.backing := by simp [State.loadSegReal]
@[simp] theorem loadSegReal_cfg (w : Selector) : (s.loadSegReal g w).cfg = s.cfg := by simp [State.loadSegReal]
@[simp] theorem loadSegReal_draws (w : Selector) : (s.loadSegReal g w).draws = s.draws := by simp [State.loadSegReal]
@[simp] theorem loadSegReal_caches (w : Selector) : (s.loadSegReal g w).caches = s.caches := by simp [State.loadSegReal]

/-! ### writeDr: only the debug registers -/

@[simp] theorem writeDr_gpr (d : DbgReg) : (s.writeDr d v).gpr = s.gpr := by cases d <;> rfl
@[simp] theorem writeDr_pc (d : DbgReg) : (s.writeDr d v).pc = s.pc := by cases d <;> rfl
@[simp] theorem writeDr_flags (d : DbgReg) : (s.writeDr d v).flags = s.flags := by cases d <;> rfl
@[simp] theorem writeDr_es (d : DbgReg) : (s.writeDr d v).es = s.es := by cases d <;> rfl
@[simp] theorem writeDr_cs (d : DbgReg) : (s.writeDr d v).cs = s.cs := by cases d <;> rfl
@[simp] theorem writeDr_ss (d : DbgReg) : (s.writeDr d v).ss = s.ss := by cases d <;> rfl
@[simp] theorem writeDr_ds (d : DbgReg) : (s.writeDr d v).ds = s.ds := by cases d <;> rfl
@[simp] theorem writeDr_fs (d : DbgReg) : (s.writeDr d v).fs = s.fs := by cases d <;> rfl
@[simp] theorem writeDr_gs (d : DbgReg) : (s.writeDr d v).gs = s.gs := by cases d <;> rfl
@[simp] theorem writeDr_cpl (d : DbgReg) : (s.writeDr d v).cpl = s.cpl := by cases d <;> rfl
@[simp] theorem writeDr_cr0 (d : DbgReg) : (s.writeDr d v).cr0 = s.cr0 := by cases d <;> rfl
@[simp] theorem writeDr_cr2 (d : DbgReg) : (s.writeDr d v).cr2 = s.cr2 := by cases d <;> rfl
@[simp] theorem writeDr_cr3 (d : DbgReg) : (s.writeDr d v).cr3 = s.cr3 := by cases d <;> rfl
@[simp] theorem writeDr_cr4 (d : DbgReg) : (s.writeDr d v).cr4 = s.cr4 := by cases d <;> rfl
@[simp] theorem writeDr_cr8 (d : DbgReg) : (s.writeDr d v).cr8 = s.cr8 := by cases d <;> rfl
@[simp] theorem writeDr_lme (d : DbgReg) : (s.writeDr d v).lme = s.lme := by cases d <;> rfl
@[simp] theorem writeDr_lma (d : DbgReg) : (s.writeDr d v).lma = s.lma := by cases d <;> rfl
@[simp] theorem writeDr_gdtr (d : DbgReg) : (s.writeDr d v).gdtr = s.gdtr := by cases d <;> rfl
@[simp] theorem writeDr_ldtr (d : DbgReg) : (s.writeDr d v).ldtr = s.ldtr := by cases d <;> rfl
@[simp] theorem writeDr_pdpte (d : DbgReg) : (s.writeDr d v).pdpte = s.pdpte := by cases d <;> rfl
@[simp] theorem writeDr_ssShadow (d : DbgReg) : (s.writeDr d v).ssShadow = s.ssShadow := by cases d <;> rfl
@[simp] theorem writeDr_afterMovSs (d : DbgReg) : (s.writeDr d v).afterMovSs = s.afterMovSs := by cases d <;> rfl
@[simp] theorem writeDr_mem (d : DbgReg) : (s.writeDr d v).mem = s.mem := by cases d <;> rfl
@[simp] theorem writeDr_backing (d : DbgReg) : (s.writeDr d v).backing = s.backing := by cases d <;> rfl
@[simp] theorem writeDr_cfg (d : DbgReg) : (s.writeDr d v).cfg = s.cfg := by cases d <;> rfl
@[simp] theorem writeDr_draws (d : DbgReg) : (s.writeDr d v).draws = s.draws := by cases d <;> rfl
@[simp] theorem writeDr_caches (d : DbgReg) : (s.writeDr d v).caches = s.caches := by cases d <;> rfl

/-! ### The general registers -/

/-- Reading `x[m]` after writing `x[n]`. -/
theorem x_setX (m : BitVec 4) : (s.setX n v).x m = if n = m then v else s.x m := by
  simp [State.x, State.setX, Vector.getElem_set, BitVec.toNat_inj]

@[simp] theorem x_setX_self : (s.setX n v).x n = v := by simp [x_setX]

theorem x_setX_ne {m : BitVec 4} (h : n ≠ m) : (s.setX n v).x m = s.x m := by simp [x_setX, h]

@[simp] theorem x_drawFlags (m : BitVec 4) : s.drawFlags.x m = s.x m := rfl
@[simp] theorem x_storeAt (m : BitVec 4) : (s.storeAt pas v).x m = s.x m := rfl
@[simp] theorem x_withCr0 (m : BitVec 4) : (s.withCr0 v).x m = s.x m := rfl
@[simp] theorem x_withPdpt (m : BitVec 4) : s.withPdpt.x m = s.x m := rfl
@[simp] theorem x_atFault (m : BitVec 4) : s.atFault.x m = s.x m := rfl
@[simp] theorem x_retire (m : BitVec 4) : (retire i s t b ls).x m = t.x m := rfl
@[simp] theorem x_setSeg (m : BitVec 4) : (s.setSeg g r).x m = s.x m := by cases g <;> rfl
@[simp] theorem x_writeDr (d : DbgReg) (m : BitVec 4) : (s.writeDr d v).x m = s.x m := by cases d <;> rfl

/-! ### The mode, which reads CR0.PE, EFER.LMA, CS.hidden.d.long, RFLAGS.VM and the parameter of Intel 64 -/

/-- The mode is a function of five fields. -/
theorem mode_congr {s t : State} (h0 : t.cr0 = s.cr0) (h1 : t.lma = s.lma) (h2 : t.cs = s.cs)
    (h3 : flagsVM t.flags = flagsVM s.flags) (h4 : t.cfg = s.cfg) : t.mode = s.mode := by
  unfold State.mode State.longActive
  rw [h0, h1, h2, h3, h4]

/-- A part without Intel 64 is never in IA-32e mode (00_scope.md R6). -/
theorem not_ia32e_of_arch {s : State} (h : s.cfg.arch64 = false) : s.ia32e = false := by
  have hm : s.mode ≠ .long64 ∧ s.mode ≠ .compat := by
    unfold State.mode State.longActive
    grind
  simp [State.ia32e, hm]

@[simp] theorem mode_setX : (s.setX n v).mode = s.mode := rfl
@[simp] theorem mode_storeAt : (s.storeAt pas v).mode = s.mode := rfl
@[simp] theorem mode_atFault : s.atFault.mode = s.mode := rfl
@[simp] theorem mode_withPdpt : s.withPdpt.mode = s.mode := rfl
@[simp] theorem mode_retire : (retire i s t b ls).mode = t.mode := rfl
@[simp] theorem mode_writeReg (x : Bool) (w : Width) : (s.writeReg x w n v).mode = s.mode := mode_congr (by simp) (by simp) (by simp) (by simp) (by simp)
@[simp] theorem mode_writeDr (d : DbgReg) : (s.writeDr d v).mode = s.mode := by cases d <;> rfl

end Sys2Proof.Machine
end

