-- ==== Sys2Proof/Laws/Ops.lean ====
section
/-! SUPPORT. For each shared operation, once, everything it can do. -/

namespace Sys2Proof.Machine

/-! ## Sequencing -/

/-- A sequence answers a value exactly when both parts do. -/
theorem bind_ok_iff {α β : Type} {x : Res α} {f : α → Res β} {b : β} : (x >>= f) = .ok b ↔ ∃ a, x = .ok a ∧ f a = .ok b := by
  cases x <;> simp [bind, Except.bind]

/-- A sequence stops exactly when its first part stops, or the second does after it. -/
theorem bind_error_iff {α β : Type} {x : Res α} {f : α → Res β} {e : Stop} :
    (x >>= f) = .error e ↔ x = .error e ∨ ∃ a, x = .ok a ∧ f a = .error e := by
  cases x <;> simp [bind, Except.bind]

/-- A part that answers drops out of a sequence. -/
@[simp] theorem ok_bind {α β : Type} (a : α) (f : α → Res β) : ((.ok a : Res α) >>= f) = f a := rfl

/-- A part that stops ends a sequence. -/
@[simp] theorem error_bind {α β : Type} (e : Stop) (f : α → Res β) : ((.error e : Res α) >>= f) = .error e := rfl

/-! ## Completing an instruction -/

/-- The outcome of a completed part. -/
@[simp] theorem finish_ok (i : Instr) (s t : State) : finish i s (.ok t) = .next (retire i s t false false) := rfl

/-- The outcome of a part that stops. -/
@[simp] theorem finish_error (i : Instr) (s : State) (e : Stop) : finish i s (.error e) = s.stop e := rfl

/-- A stop is never a next state. -/
theorem stop_ne_next (s t : State) (e : Stop) : s.stop e ≠ .next t := by cases e <;> simp [State.stop]

/-- An instruction completes exactly when its part does. -/
theorem finish_next_iff {i : Instr} {s t : State} {r : Res State} :
    finish i s r = .next t ↔ ∃ u, r = .ok u ∧ t = retire i s u false false := by
  cases r <;> simp [stop_ne_next, eq_comm (a := t)]

/-- An instruction faults exactly when its part raises the exception. -/
theorem finish_fault_iff {i : Instr} {s : State} {r : Res State} {f : Fault} :
    finish i s r = .fault f ↔ ∃ e, r = .error (.exc e) ∧ f = s.raise e := by
  rcases r with (e | r) | u <;> simp [State.stop, eq_comm (a := f)]

/-- An instruction is refused exactly when its part is. -/
theorem finish_refused_iff {i : Instr} {s : State} {r : Res State} {q : Refusal} :
    finish i s r = .refused q ↔ r = .error (.refuse q) := by
  rcases r with (e | r) | u <;> simp [State.stop]

/-- The state that a fault carries. -/
@[simp] theorem raise_state (s : State) (e : Exception) : (s.raise e).state = s.atFault := by cases e <;> rfl

/-! ## Guards -/

theorem guardLock_ok_iff {p : Prefixes} {u : Unit} : guardLock p = .ok u ↔ p.lock = false := by
  unfold guardLock; split <;> simp_all

theorem guardLock_error_iff {p : Prefixes} {e : Stop} : guardLock p = .error e ↔ p.lock = true ∧ e = .exc .ud := by
  unfold guardLock; split <;> simp_all [eq_comm (a := e)]

theorem guardV86_ok_iff {s : State} {u : Unit} : s.guardV86 = .ok u ↔ s.mode ≠ .v86 := by
  unfold State.guardV86; split <;> simp_all

theorem guardV86_error_iff {s : State} {e : Stop} : s.guardV86 = .error e ↔ s.mode = .v86 ∧ e = .exc (.gp 0) := by
  unfold State.guardV86; split <;> simp_all [eq_comm (a := e)]

theorem guardCpl0_ok_iff {s : State} {u : Unit} : s.guardCpl0 = .ok u ↔ s.privilege = 0 := by
  unfold State.guardCpl0; split <;> simp_all

theorem guardCpl0_error_iff {s : State} {e : Stop} : s.guardCpl0 = .error e ↔ s.privilege ≠ 0 ∧ e = .exc (.gp 0) := by
  unfold State.guardCpl0; split <;> simp_all [eq_comm (a := e)]

theorem guardDetect_ok_iff {s : State} {u : Unit} : s.guardDetect = .ok u ↔ dr7GD s.dr7 = false := by
  unfold State.guardDetect; split <;> simp_all

theorem guardDetect_error_iff {s : State} {e : Stop} : s.guardDetect = .error e ↔ dr7GD s.dr7 = true ∧ e = .exc .db := by
  unfold State.guardDetect; split <;> simp_all [eq_comm (a := e)]

/-- MOV CR and MOV DR pass the privilege guards exactly in real-address mode, or with CPL 0 outside virtual-8086 mode. -/
theorem supervisor_iff {s : State} : s.supervisor ↔ s.mode ≠ .v86 ∧ s.privilege = 0 := by
  unfold State.supervisor State.privilege
  cases s.mode <;> simp

/-- The byte registers AH, CH, DH, BH (10_state.md R24, R25). -/
theorem isHighByte_iff {rex : Bool} {n : BitVec 4} : isHighByte rex n = true ↔ rex = false ∧ 4 ≤ n.toNat ∧ n.toNat ≤ 7 := by
  unfold isHighByte
  revert rex n
  decide

/-! ## Memory accesses -/

/-- A result of the segment checks is an answer, #GP(0), or #SS(0). -/
theorem segCheck_error {s : State} {g : SegReg} {ea : Quad} {n : Nat} {w : Bool} {e : Stop} (h : s.segCheck g ea n w = .error e) :
    e = .exc (.gp 0) ∨ e = .exc (.ss 0) := by
  unfold State.segCheck segFault at h
  grind

theorem alignCheck_ok_iff {s : State} {la : Quad} {n : Nat} {u : Unit} :
    s.alignCheck la n = .ok u ↔ (s.alignChecked = true → la.toNat % n = 0) := by
  unfold State.alignCheck; split <;> simp_all

theorem alignCheck_error_iff {s : State} {la : Quad} {n : Nat} {e : Stop} :
    s.alignCheck la n = .error e ↔ s.alignChecked = true ∧ la.toNat % n ≠ 0 ∧ e = .exc (.ac 0) := by
  unfold State.alignCheck; split <;> simp_all [eq_comm (a := e)]

/-- Alignment checking as the rules state it (20_memory.md R72). -/
theorem alignChecked_iff {s : State} : s.alignChecked = true ↔ s.alignmentCounts := by
  unfold State.alignChecked State.alignmentCounts State.privilege
  cases s.mode <;> simp [and_assoc]

/-- Every byte translated: the physical addresses. -/
theorem physical_ok_of {s : State} {k : AccessKind} {las : List Quad} {pas : List Quad}
    (h : las.map (fun la => s.translate la k) = pas.map .phys) : s.physical k las = .ok (pas.map BitVec.toNat) := by
  induction las generalizing pas with
  | nil => cases pas <;> simp_all [State.physical]
  | cons la las ih =>
    cases pas with
    | nil => simp at h
    | cons pa pas =>
      simp only [List.map_cons, List.cons.injEq] at h
      simp [State.physical, h.1, ih h.2]

/-- Translation stops only with a page fault, at the first address whose translation faults. -/
theorem physical_error {s : State} {k : AccessKind} {las : List Quad} {e : Stop} (h : s.physical k las = .error e) :
    ∃ la ∈ las, ∃ c, s.translate la k = .pageFault c ∧ e = .exc (.pf c la) := by
  induction las with
  | nil => simp [State.physical] at h
  | cons la las ih =>
    unfold State.physical at h
    split at h
    · rcases bind_error_iff.1 h with h | ⟨a, _, h⟩
      · obtain ⟨x, hx, y⟩ := ih h
        exact ⟨x, List.mem_cons_of_mem _ hx, y⟩
      · simp at h
    · rename_i c hc
      exact ⟨la, List.mem_cons_self, c, hc, by simpa using h.symm⟩

/-- As many physical addresses as linear ones. -/
theorem physical_length {s : State} {k : AccessKind} {las : List Quad} {pas : List Nat} (h : s.physical k las = .ok pas) :
    pas.length = las.length := by
  induction las generalizing pas with
  | nil => simp [State.physical] at h; simp [← h]
  | cons la las ih =>
    unfold State.physical at h
    split at h
    · obtain ⟨a, ha, hb⟩ := bind_ok_iff.1 h
      simp only [Except.ok.injEq] at hb
      simp [← hb, ih ha]
    · simp at h

theorem requireBacked_ok_iff {s : State} {pas r : List Nat} :
    s.requireBacked pas = .ok r ↔ (∀ a ∈ pas, s.backed a = true) ∧ r = pas := by
  unfold State.requireBacked; split <;> simp_all [eq_comm (a := r)]

theorem requireBacked_error_iff {s : State} {pas : List Nat} {e : Stop} :
    s.requireBacked pas = .error e ↔ (∃ a ∈ pas, s.backed a = false) ∧ e = .refuse .unbackedMemory := by
  unfold State.requireBacked; split <;> simp_all [eq_comm (a := e)]

/-- Resolving an access answers exactly when every check allows it, in the order of 20_memory.md R66. -/
theorem resolve_ok_iff {s : State} {g : SegReg} {ea : Quad} {n : Nat} {t : AccessType} {pas : List Nat} :
    s.resolve g ea n t = .ok pas ↔
      s.segCheck g ea n (t == .write) = .ok () ∧ s.alignCheck (s.linear g ea 0) n = .ok () ∧
      s.physical (s.dataKind t) ((List.range n).map (s.linear g ea)) = .ok pas ∧ ∀ a ∈ pas, s.backed a = true := by
  unfold State.resolve
  simp only [bind_ok_iff, requireBacked_ok_iff]
  grind

/-- Resolving an access of `n` bytes gives `n` addresses. -/
theorem resolve_length {s : State} {g : SegReg} {ea : Quad} {n : Nat} {t : AccessType} {pas : List Nat}
    (h : s.resolve g ea n t = .ok pas) : pas.length = n := by
  have := physical_length (resolve_ok_iff.1 h).2.2.1
  simpa using this

/-- What resolving an access stops with. -/
theorem resolve_error {s : State} {g : SegReg} {ea : Quad} {n : Nat} {t : AccessType} {e : Stop} (h : s.resolve g ea n t = .error e) :
    e = .exc (.gp 0) ∨ e = .exc (.ss 0) ∨ (s.alignChecked = true ∧ e = .exc (.ac 0)) ∨ (∃ c la, e = .exc (.pf c la)) ∨
      e = .refuse .unbackedMemory := by
  unfold State.resolve at h
  rcases bind_error_iff.1 h with h | ⟨_, _, h⟩
  · rcases segCheck_error h with h | h <;> simp [h]
  · rcases bind_error_iff.1 h with h | ⟨_, _, h⟩
    · have := alignCheck_error_iff.1 h
      simp [this.1, this.2.2]
    · rcases bind_error_iff.1 h with h | ⟨_, _, h⟩
      · obtain ⟨la, _, c, _, h⟩ := physical_error h
        simp [h]
      · simp [(requireBacked_error_iff.1 h).2]

theorem memRead_ok_iff {s : State} {g : SegReg} {ea : Quad} {n : Nat} {v : Quad} :
    s.memRead g ea n = .ok v ↔ ∃ pas, s.resolve g ea n .read = .ok pas ∧ v = s.loadAt pas := by
  unfold State.memRead; simp [bind_ok_iff, eq_comm (a := v)]

theorem memRead_error_iff {s : State} {g : SegReg} {ea : Quad} {n : Nat} {e : Stop} :
    s.memRead g ea n = .error e ↔ s.resolve g ea n .read = .error e := by
  unfold State.memRead; simp [bind_error_iff]

theorem memWrite_ok_iff {s t : State} {g : SegReg} {ea : Quad} {n : Nat} {v : Quad} :
    s.memWrite g ea n v = .ok t ↔ ∃ pas, s.resolve g ea n .write = .ok pas ∧ t = s.storeAt pas v := by
  unfold State.memWrite; simp [bind_ok_iff, eq_comm (a := t)]

theorem memWrite_error_iff {s : State} {g : SegReg} {ea : Quad} {n : Nat} {v : Quad} {e : Stop} :
    s.memWrite g ea n v = .error e ↔ s.resolve g ea n .write = .error e := by
  unfold State.memWrite; simp [bind_error_iff]

/-! ## Operands -/

theorem readRm_ok_iff {s : State} {i : Instr} {p : Prefixes} {w : Width} {rm : Rm} {v : Quad} :
    s.readRm i p w rm = .ok v ↔ RmValue s i p w v rm := by
  cases rm <;> simp [State.readRm, RmValue, memRead_ok_iff, eq_comm (a := v)]

theorem readRm_error_iff {s : State} {i : Instr} {p : Prefixes} {w : Width} {rm : Rm} {e : Stop} :
    s.readRm i p w rm = .error e ↔
      ∃ m, rm = .mem m ∧ s.resolve (s.memOperand i p m).1 (s.memOperand i p m).2 w.bytes .read = .error e := by
  cases rm <;> simp [State.readRm, memRead_error_iff]

/-- What writing an r/m operand does: a register is written, or the bytes of a memory operand whose access is allowed. -/
theorem writeRm_ok_iff {s t : State} {i : Instr} {p : Prefixes} {w : Width} {rm : Rm} {v : Quad} :
    s.writeRm i p w v rm = .ok t ↔
      (∃ n, rm = .reg n ∧ t = s.writeReg p.rex.isSome w (rmField p n) v) ∨
      (∃ m pas, rm = .mem m ∧ s.resolve (s.memOperand i p m).1 (s.memOperand i p m).2 w.bytes .write = .ok pas ∧
        t = s.storeAt pas v) := by
  cases rm <;> simp [State.writeRm, memWrite_ok_iff, eq_comm (a := t)]

theorem writeRm_error_iff {s : State} {i : Instr} {p : Prefixes} {w : Width} {rm : Rm} {v : Quad} {e : Stop} :
    s.writeRm i p w v rm = .error e ↔
      ∃ m, rm = .mem m ∧ s.resolve (s.memOperand i p m).1 (s.memOperand i p m).2 w.bytes .write = .error e := by
  cases rm <;> simp [State.writeRm, memWrite_error_iff]

end Sys2Proof.Machine
end

