-- ==== Sys2Proof/Laws/ControlRegs.lean ====
section
/-! SUPPORT. Control and debug registers: for each shared operation, once, everything it can do. -/

namespace Sys2Proof.Machine

/-! ## Names -/

/-- The control register that a number names (42_mov_cr.md R212). -/
theorem crOf_ok_iff {s : State} {n : BitVec 4} {c : CtlReg} :
    s.crOf n = .ok c ↔ n = c.number ∧ (c = .cr4 → s.cfg.hasCr4 = true) := by
  unfold State.crOf
  cases c <;> simp only [CtlReg.number] <;> grind

/-- The only stop of naming a control register is #UD. -/
theorem crOf_error {s : State} {n : BitVec 4} {e : Stop} (h : s.crOf n = .error e) : e = .exc .ud := by
  unfold State.crOf at h; grind

/-- Naming a debug register is looking its number up in the table of 43_mov_dr.md R252; REX.R and a number without an entry are #UD. -/
theorem drOf_eq (s : State) (p : Prefixes) (n : BitVec 3) :
    s.drOf p n =
      if p.rexR then .error (.exc .ud) else (drTarget s.debugExtensions n).elim (.error (.exc .ud)) .ok := by
  unfold State.drOf
  generalize s.debugExtensions = de, p.rexR = r
  revert n de r
  decide

theorem drOf_ok_iff {s : State} {p : Prefixes} {n : BitVec 3} {d : DbgReg} :
    s.drOf p n = .ok d ↔ p.rexR = false ∧ drTarget s.debugExtensions n = some d := by
  rw [drOf_eq]
  cases p.rexR <;> cases drTarget s.debugExtensions n <;> simp

theorem drOf_error_iff {s : State} {p : Prefixes} {n : BitVec 3} {e : Stop} :
    s.drOf p n = .error e ↔ (p.rexR = true ∨ drTarget s.debugExtensions n = none) ∧ e = .exc .ud := by
  rw [drOf_eq]
  cases p.rexR <;> cases drTarget s.debugExtensions n <;> simp [eq_comm (a := e)]

/-- The checks of a control-register row pass (42_mov_cr.md R234). -/
theorem crAccess_ok_iff {p : Prefixes} {n : BitVec 4} {s : State} {c : CtlReg} :
    crAccess p n s = .ok c ↔ p.lock = false ∧ s.supervisor ∧ n = c.number ∧ (c = .cr4 → s.cfg.hasCr4 = true) := by
  unfold crAccess
  simp only [bind_ok_iff, guardV86_ok_iff, guardLock_ok_iff, guardCpl0_ok_iff, crOf_ok_iff, supervisor_iff]
  grind

/-- The checks of a control-register row stop with #UD or #GP(0). -/
theorem crAccess_error {p : Prefixes} {n : BitVec 4} {s : State} {e : Stop} (h : crAccess p n s = .error e) :
    e = .exc .ud ∨ e = .exc (.gp 0) := by
  unfold crAccess at h
  simp only [bind_error_iff, guardV86_error_iff, guardLock_error_iff, guardCpl0_error_iff] at h
  grind [crOf_error]

/-- The checks of a debug-register row pass (43_mov_dr.md R260). -/
theorem drAccess_ok_iff {p : Prefixes} {n : BitVec 3} {s : State} {d : DbgReg} :
    drAccess p n s = .ok d ↔
      p.lock = false ∧ p.rexR = false ∧ s.supervisor ∧ dr7GD s.dr7 = false ∧ drTarget s.debugExtensions n = some d := by
  unfold drAccess
  simp only [bind_ok_iff, guardV86_ok_iff, guardLock_ok_iff, guardCpl0_ok_iff, guardDetect_ok_iff, drOf_ok_iff, supervisor_iff]
  grind

/-- The checks of a debug-register row stop with #UD, #GP(0) or #DB. -/
theorem drAccess_error {p : Prefixes} {n : BitVec 3} {s : State} {e : Stop} (h : drAccess p n s = .error e) :
    e = .exc .ud ∨ e = .exc (.gp 0) ∨ e = .exc .db := by
  unfold drAccess at h
  simp only [bind_error_iff, guardV86_error_iff, guardLock_error_iff, guardCpl0_error_iff, guardDetect_error_iff, drOf_error_iff] at h
  grind

/-! ## Writes -/

/-- The load of the PDPT answers the candidate state, with the PDPT loaded or not. -/
theorem pdptLoad_ok {s t u : State} {b : Bool} (h : s.pdptLoad t b = .ok u) : u = t ∨ u = t.withPdpt := by
  unfold State.pdptLoad at h; grind

/-- The load of the PDPT stops with #GP(0), in protected mode, or for want of memory. -/
theorem pdptLoad_error {s t : State} {b : Bool} {e : Stop} (h : s.pdptLoad t b = .error e) :
    e = .exc (.gp 0) ∨ e = .refuse .unbackedMemory := by
  unfold State.pdptLoad at h; grind

/-- The reserved bits of CR0 stay clear and ET stays set where it is fixed, bit by bit. -/
theorem cr0Stored_bit (cfg : Params) (v : Quad) (k : Nat) (h : k < 64) :
    (cr0Stored cfg v).getLsbD k = ((v.getLsbD k && !cfg.cr0Reserved.getLsbD k) || (k == 4 && cfg.cr0EtFixed)) := by
  unfold cr0Stored
  have h16 : (16#64)[k]'h = (k == 4) := by
    revert k; decide
  cases cfg.cr0EtFixed <;> simp [h, h16]

/-- A completed write of CR0 (42_mov_cr.md R222, R232). -/
theorem writeCr0_ok {s u : State} {v : Quad} (h : s.writeCr0 v = .ok u) :
    s.cr0Faults (cr0Stored s.cfg v) = false ∧ s.pdptLoad (s.withCr0 (cr0Stored s.cfg v)) false = .ok u := by
  unfold State.writeCr0 at h
  split at h
  · simp at h
  · split at h
    · simp at h
    · rename_i h2
      exact ⟨by simpa using h2, h⟩

/-- A completed write of CR3 (42_mov_cr.md R224): the value stored has no reserved bit. -/
theorem writeCr3_ok {s u : State} {v : Quad} (h : s.writeCr3 v = .ok u) :
    ∃ n, n &&& cr3Mask s.cfg = 0 ∧ s.pdptLoad { s with cr3 := n } true = .ok u := by
  unfold State.writeCr3 at h
  split at h
  · split at h
    · simp at h
    · rename_i _ h2
      exact ⟨_, by simpa using h2, h⟩
  · refine ⟨_, ?_, h⟩
    rw [BitVec.and_assoc]
    simp [BitVec.and_comm]

/-- A completed write of CR4 (42_mov_cr.md R225 to R227). -/
theorem writeCr4_ok {s u : State} {v : Quad} (h : s.writeCr4 v = .ok u) :
    s.cr4Faults v = false ∧ s.pdptLoad { s with cr4 := v } false = .ok u := by
  unfold State.writeCr4 at h
  split at h
  · simp at h
  · rename_i h2
    exact ⟨by simpa using h2, h⟩

/-- A completed write of CR8 (42_mov_cr.md R228). -/
theorem writeCr8_ok {s u : State} {v : Quad} (h : s.writeCr8 v = .ok u) : v &&& s.cfg.cr8Reserved = 0 ∧ u = { s with cr8 := v } := by
  unfold State.writeCr8 at h
  split at h
  · simp at h
  · rename_i h2
    simp only [Except.ok.injEq] at h
    exact ⟨by simpa using h2, h.symm⟩

/-- A write of a control register stops with #GP(0) or for want of memory. -/
theorem writeCr_error {s : State} {c : CtlReg} {v : Quad} {e : Stop} (h : s.writeCr c v = .error e) :
    e = .exc (.gp 0) ∨ e = .refuse .unbackedMemory := by
  cases c with
  | cr0 =>
    simp only [State.writeCr] at h
    unfold State.writeCr0 at h
    split at h
    · grind
    · split at h
      · grind
      · exact pdptLoad_error h
  | cr2 => simp [State.writeCr] at h
  | cr3 =>
    simp only [State.writeCr] at h
    unfold State.writeCr3 at h
    split at h
    · split at h
      · grind
      · exact pdptLoad_error h
    · exact pdptLoad_error h
  | cr4 =>
    simp only [State.writeCr] at h
    unfold State.writeCr4 at h
    split at h
    · grind
    · exact pdptLoad_error h
  | cr8 =>
    simp only [State.writeCr] at h
    unfold State.writeCr8 at h
    grind

/-- A completed write of a control register changes control registers, EFER.LMA and PDPT registers alone. -/
theorem writeCr_ok {s u : State} {c : CtlReg} {v : Quad} (h : s.writeCr c v = .ok u) :
    u = { s with cr0 := u.cr0, cr2 := u.cr2, cr3 := u.cr3, cr4 := u.cr4, cr8 := u.cr8, lma := u.lma, pdpte := u.pdpte } := by
  cases c with
  | cr0 => rcases pdptLoad_ok (writeCr0_ok h).2 with rfl | rfl <;> rfl
  | cr2 => simp only [State.writeCr, Except.ok.injEq] at h; subst h; rfl
  | cr3 => obtain ⟨n, _, h⟩ := writeCr3_ok h; rcases pdptLoad_ok h with rfl | rfl <;> rfl
  | cr4 => rcases pdptLoad_ok (writeCr4_ok h).2 with rfl | rfl <;> rfl
  | cr8 => obtain ⟨_, rfl⟩ := writeCr8_ok h; rfl

/-- A 64-bit write of a debug register (43_mov_dr.md R257). -/
theorem writeDr64_ok_iff {s u : State} {d : DbgReg} {v : Quad} :
    s.writeDr64 d v = .ok u ↔ (d = .dr6 ∨ d = .dr7 → v.extractLsb' 32 32 = 0) ∧ u = s.writeDr d v := by
  unfold State.writeDr64; split <;> simp_all [eq_comm (a := u)]

theorem writeDr64_error {s : State} {d : DbgReg} {v : Quad} {e : Stop} (h : s.writeDr64 d v = .error e) : e = .exc (.gp 0) := by
  unfold State.writeDr64 at h; grind

end Sys2Proof.Machine
end

