-- ==== Sys2Proof/Laws/Segments.lean ====
section
/-! SUPPORT. Loading a segment register: once, everything it can do. -/

namespace Sys2Proof.Machine

@[simp] theorem seg_setSeg_self (s : State) (g : SegReg) (r : SegmentRegister) : (s.setSeg g r).seg g = r := by cases g <;> rfl

/-- The other segment registers keep their values. -/
theorem seg_setSeg_ne {s : State} {g g' : SegReg} {r : SegmentRegister} (h : g' ≠ g) : (s.setSeg g r).seg g' = s.seg g' := by
  cases g <;> cases g' <;> first | rfl | exact absurd rfl h

/-- The reg field values 0 to 5 name the segment registers, 1 of them CS (10_state.md R31). -/
theorem segOfCode_of_lt {f : BitVec 3} (h : f.toNat < 6) : ∃ g, segOfCode f = some g ∧ (f ≠ 1 → g ≠ .cs) := by
  revert f
  decide

theorem sregOf_ok_iff {f : BitVec 3} {g : SegReg} : sregOf f = .ok g ↔ segOfCode f = some g := by
  unfold sregOf; split <;> simp_all

theorem sregOf_error_iff {f : BitVec 3} {e : Stop} : sregOf f = .error e ↔ segOfCode f = none ∧ e = .exc .ud := by
  unfold sregOf; split <;> simp_all [eq_comm (a := e)]

theorem loadableSreg_ok_iff {f : BitVec 3} {g : SegReg} : loadableSreg f = .ok g ↔ segOfCode f = some g ∧ g ≠ .cs := by
  unfold loadableSreg; grind

theorem loadableSreg_error_iff {f : BitVec 3} {e : Stop} :
    loadableSreg f = .error e ↔ (segOfCode f = some .cs ∨ segOfCode f = none) ∧ e = .exc .ud := by
  unfold loadableSreg; split <;> simp_all [eq_comm (a := e)]

/-- A completed load of a segment register: that register, and bytes of memory (the accessed bit). -/
theorem loadSeg_ok {s u : State} {g : SegReg} {sel : Selector} (h : s.loadSeg g sel = .ok u) :
    ∃ (r : SegmentRegister) (cells : List Host.Cell), r.sel = sel ∧ u = { s with mem := Memory.writeAll s.mem cells }.setSeg g r := by
  unfold State.loadSeg at h
  split at h
  · simp only [State.loadSegReal, Except.ok.injEq] at h
    exact ⟨_, [], rfl, h.symm⟩
  · split at h
    · unfold State.loadSegNull at h
      split at h
      · simp at h
      · simp only [Except.ok.injEq] at h
        exact ⟨_, [], rfl, h.symm⟩
    · unfold State.loadSegDescriptor at h
      split at h
      any_goals simp at h
      rename_i d acc _
      simp only [bind_ok_iff] at h
      obtain ⟨_, _, t, ht, h⟩ := h
      unfold State.setAccessed at ht
      split at ht
      any_goals simp at ht
      simp only [Except.ok.injEq] at h
      subst ht
      exact ⟨_, _, rfl, h.symm⟩

theorem checkSs_error {s : State} {sel : Selector} {d : Descriptor} {e : Stop} (h : s.checkSs sel d = .error e) :
    e = .exc (.gp (selectorCode sel)) ∨ e = .exc (.ss (selectorCode sel)) := by
  unfold State.checkSs at h; grind

theorem checkData_error {s : State} {sel : Selector} {d : Descriptor} {e : Stop} (h : s.checkData sel d = .error e) :
    e = .exc (.gp (selectorCode sel)) ∨ e = .exc (.np (selectorCode sel)) := by
  unfold State.checkData at h; grind

/-- What the load of a segment register stops with. -/
theorem loadSeg_error {s : State} {g : SegReg} {sel : Selector} {e : Stop} (h : s.loadSeg g sel = .error e) :
    (∃ c, e = .exc (.gp c) ∨ e = .exc (.ss c) ∨ e = .exc (.np c)) ∨ (∃ c la, e = .exc (.pf c la)) ∨ e = .refuse .unbackedMemory := by
  unfold State.loadSeg at h
  split at h
  · simp at h
  · split at h
    · unfold State.loadSegNull at h; grind
    · unfold State.loadSegDescriptor at h
      split at h
      any_goals grind
      rcases bind_error_iff.1 h with h | ⟨_, _, h⟩
      · unfold State.checkLoad at h
        split at h
        · rcases checkSs_error h with h | h <;> simp [h]
        · rcases checkData_error h with h | h <;> simp [h]
      · rcases bind_error_iff.1 h with h | ⟨_, _, h⟩
        · unfold State.setAccessed at h; grind
        · simp at h

end Sys2Proof.Machine
end

