-- ==== Sys2Proof/Laws/Exec.lean ====
section
/-! SUPPORT. What any instruction can do: the writes of a completed one, and what one stops with. The statements about every
instruction rest on these two inversions alone. -/

namespace Sys2Proof.Machine

/-- The state that an instruction's own writes make, before `pc` and the model's counters move. -/
inductive Wrote (i : Instr) (s : State) : State → Prop where
  | reg (w : Width) (n : BitVec 4) (v : Quad) (hc : isCrDr i = false) (hl : loadedSreg i = none)
      (hs : ∀ a, s.dataAccess i = some a → a.type ≠ .write) : Wrote i s (s.writeReg i.prefixes.rex.isSome w n v)
  | store (a : DataAccess) (pas : List Nat) (v : Quad) (hc : isCrDr i = false) (hl : loadedSreg i = none)
      (hs : s.dataAccess i = some a) (ht : a.type = .write) (hr : s.resolve a.seg a.ea a.bytes .write = .ok pas) :
      Wrote i s (s.storeAt pas v)
  | sreg (f : BitVec 3) (g : SegReg) (sel : Selector) (u : State) (hc : isCrDr i = false) (hl : loadedSreg i = some f)
      (hf : segOfCode f = some g) (hg : g ≠ .cs) (h : s.loadSeg g sel = .ok u) : Wrote i s u
  | crDrRead (w : Width) (n : BitVec 4) (v : Quad) (hc : isCrDr i = true) (hp : s.supervisor) :
      Wrote i s (s.writeReg i.prefixes.rex.isSome w n v).drawFlags
  | crWrite (c : CtlReg) (v : Quad) (u : State) (hc : isCrDr i = true) (hp : s.supervisor) (h : s.writeCr c v = .ok u) :
      Wrote i s u.drawFlags
  | drWrite (d : DbgReg) (v : Quad) (hc : isCrDr i = true) (hp : s.supervisor)
      (hv : d = .dr6 ∨ d = .dr7 → v.extractLsb' 32 32 = 0) : Wrote i s (s.writeDr d v).drawFlags

/-- `ss_shadow` after an instruction completes (41_mov_sreg.md R200). -/
def shadowAfter (i : Instr) (s : State) : Bool := if loadedSreg i = some 2 then s.shadowAfterSs else false

/-! ## The shared operations complete -/

theorem movRmReg_next_iff {i : Instr} {p : Prefixes} {w : Width} {rm : Rm} {f : BitVec 3} {s t : State} :
    movRmReg i p w rm f s = .next t ↔ p.lock = false ∧
      ∃ u, s.writeRm i p w (s.readReg p.rex.isSome w (regField p f)) rm = .ok u ∧ t = retire i s u false false := by
  unfold movRmReg
  simp only [finish_next_iff, bind_ok_iff, guardLock_ok_iff]
  grind

theorem movRegRm_next_iff {i : Instr} {p : Prefixes} {w : Width} {rm : Rm} {f : BitVec 3} {s t : State} :
    movRegRm i p w f rm s = .next t ↔ p.lock = false ∧
      ∃ v, RmValue s i p w v rm ∧ t = retire i s (s.writeReg p.rex.isSome w (regField p f) v) false false := by
  unfold movRegRm
  simp only [finish_next_iff, bind_ok_iff, guardLock_ok_iff, readRm_ok_iff]
  grind

theorem movAccMoffs_next_iff {i : Instr} {p : Prefixes} {w : Width} {o : Moffs} {s t : State} :
    movAccMoffs i p w o s = .next t ↔ p.lock = false ∧
      ∃ pas, s.resolve (s.moffsOperand p o).1 (s.moffsOperand p o).2 w.bytes .read = .ok pas ∧
        t = retire i s (s.writeReg p.rex.isSome w 0 (s.loadAt pas)) false false := by
  unfold movAccMoffs
  simp only [finish_next_iff, bind_ok_iff, guardLock_ok_iff, memRead_ok_iff]
  grind

theorem movMoffsAcc_next_iff {i : Instr} {p : Prefixes} {w : Width} {o : Moffs} {s t : State} :
    movMoffsAcc i p w o s = .next t ↔ p.lock = false ∧
      ∃ pas, s.resolve (s.moffsOperand p o).1 (s.moffsOperand p o).2 w.bytes .write = .ok pas ∧
        t = retire i s (s.storeAt pas (s.readReg p.rex.isSome w 0)) false false := by
  unfold movMoffsAcc
  simp only [finish_next_iff, bind_ok_iff, guardLock_ok_iff, memWrite_ok_iff]
  grind

theorem movPlusImm_next_iff {i : Instr} {p : Prefixes} {w : Width} {r : BitVec 3} {v : Quad} {s t : State} :
    movPlusImm i p w r v s = .next t ↔ p.lock = false ∧ t = retire i s (s.writeReg p.rex.isSome w (rmField p r) v) false false := by
  unfold movPlusImm
  simp only [finish_next_iff, bind_ok_iff, guardLock_ok_iff]
  grind

theorem movRmImmediate_next_iff {i : Instr} {p : Prefixes} {w : Width} {rm : Rm} {v : Quad} {s t : State} :
    movRmImmediate i p w rm v s = .next t ↔ p.lock = false ∧ ∃ u, s.writeRm i p w v rm = .ok u ∧ t = retire i s u false false := by
  unfold movRmImmediate
  simp only [finish_next_iff, bind_ok_iff, guardLock_ok_iff]
  grind

theorem movRmSreg_next_iff {i : Instr} {p : Prefixes} {w : Width} {rm : Rm} {f : BitVec 3} {s t : State} :
    movRmSreg i p w rm f s = .next t ↔ p.lock = false ∧ ∃ g, segOfCode f = some g ∧
      ((∃ n, rm = .reg n ∧ t = retire i s (s.writeReg p.rex.isSome w (rmField p n) (s.selectorValue w g)) false false) ∨
       (∃ m pas, rm = .mem m ∧ s.resolve (s.memOperand i p m).1 (s.memOperand i p m).2 2 .write = .ok pas ∧
          t = retire i s (s.storeAt pas ((s.seg g).sel.setWidth 64)) false false)) := by
  unfold movRmSreg
  simp only [finish_next_iff, bind_ok_iff, guardLock_ok_iff, sregOf_ok_iff]
  cases rm <;> simp [writeRm_ok_iff, Width.bytes] <;> grind

theorem loadSreg_ok_iff {i : Instr} {p : Prefixes} {rm : Rm} {f : BitVec 3} {s u : State} {g : SegReg} :
    loadSreg i p f rm s = .ok (g, u) ↔ p.lock = false ∧ segOfCode f = some g ∧ g ≠ .cs ∧
      ∃ v, RmValue s i p .b16 v rm ∧ s.loadSeg g (v.setWidth 16) = .ok u := by
  unfold loadSreg
  simp only [bind_ok_iff, guardLock_ok_iff, loadableSreg_ok_iff, readRm_ok_iff]
  constructor
  · rintro ⟨_, hl, g', ⟨hf, hg⟩, v, hv, t, ht, h⟩
    simp only [Except.ok.injEq, Prod.mk.injEq] at h
    obtain ⟨rfl, rfl⟩ := h
    exact ⟨hl, hf, hg, v, hv, ht⟩
  · rintro ⟨hl, hf, hg, v, hv, ht⟩
    exact ⟨(), hl, g, ⟨hf, hg⟩, v, hv, u, ht, rfl⟩

/-- SS is the segment register that the field value 2 names (10_state.md R31). -/
theorem segOfCode_ss_iff {f : BitVec 3} {g : SegReg} (h : segOfCode f = some g) : g = .ss ↔ f = 2 := by
  have key : ∀ f, segOfCode f = some .ss ↔ f = 2 := by decide
  rw [← key f, h, Option.some.injEq]

theorem movSregRm_next_iff {i : Instr} {p : Prefixes} {rm : Rm} {f : BitVec 3} {s t : State} :
    movSregRm i p f rm s = .next t ↔ p.lock = false ∧ ∃ g, segOfCode f = some g ∧ g ≠ .cs ∧
      ∃ v, RmValue s i p .b16 v rm ∧ ∃ u, s.loadSeg g (v.setWidth 16) = .ok u ∧
        t = retire i s u (if f = 2 then s.shadowAfterSs else false) (decide (f = 2)) := by
  unfold movSregRm
  constructor
  · intro h
    split at h
    · rename_i g u hu
      obtain ⟨hl, hf, hg, v, hv, hu⟩ := loadSreg_ok_iff.1 hu
      refine ⟨hl, g, hf, hg, v, hv, u, hu, ?_⟩
      simpa [segOfCode_ss_iff hf, eq_comm (a := t)] using h
    · exact absurd h (stop_ne_next _ _ _)
  · rintro ⟨hl, g, hf, hg, v, hv, u, hu, rfl⟩
    rw [loadSreg_ok_iff.2 ⟨hl, hf, hg, v, hv, hu⟩]
    simp [segOfCode_ss_iff hf]

/-- A load of a segment register whose source can be read stops as the load does. -/
theorem movSregRm_stop {i : Instr} {p : Prefixes} {rm : Rm} {f : BitVec 3} {s : State} {g : SegReg} {v : Quad} {e : Stop}
    (hl : p.lock = false) (hf : segOfCode f = some g) (hg : g ≠ .cs) (hv : RmValue s i p .b16 v rm)
    (h : s.loadSeg g (v.setWidth 16) = .error e) : movSregRm i p f rm s = s.stop e := by
  have hs : loadSreg i p f rm s = .error e := by
    unfold loadSreg
    rw [(guardLock_ok_iff (u := ())).2 hl, loadableSreg_ok_iff.2 ⟨hf, hg⟩, readRm_ok_iff.2 hv]
    simp [h]
  simp [movSregRm, hs]

/-- MOV CR stops as its checks do. -/
theorem movRegCr_stop {i : Instr} {p : Prefixes} {w : Width} {n : BitVec 4} {r : BitVec 3} {s : State} {e : Stop}
    (h : crAccess p n s = .error e) : movRegCr i p w n r s = s.stop e := by simp [movRegCr, h]

theorem movCrReg_stop {i : Instr} {p : Prefixes} {w : Width} {n : BitVec 4} {r : BitVec 3} {s : State} {e : Stop}
    (h : crAccess p n s = .error e) : movCrReg i p w n r s = s.stop e := by simp [movCrReg, h]

/-- A write of a control register that passes its checks stops as the write does. -/
theorem movCrReg_write_stop {i : Instr} {p : Prefixes} {w : Width} {n : BitVec 4} {r : BitVec 3} {s : State} {c : CtlReg} {e : Stop}
    (h : crAccess p n s = .ok c) (hw : s.writeCr c (s.readReg p.rex.isSome w (rmField p r)) = .error e) :
    movCrReg i p w n r s = s.stop e := by simp [movCrReg, h, hw]

/-- MOV DR stops as its checks do. -/
theorem movRegDr_stop {i : Instr} {p : Prefixes} {w : Width} {n r : BitVec 3} {s : State} {e : Stop}
    (h : drAccess p n s = .error e) : movRegDr i p w n r s = s.stop e := by simp [movRegDr, h]

theorem movRegCr_next_iff {i : Instr} {p : Prefixes} {w : Width} {n : BitVec 4} {r : BitVec 3} {s t : State} :
    movRegCr i p w n r s = .next t ↔ ∃ c, crAccess p n s = .ok c ∧
      t = retire i s (s.writeReg p.rex.isSome w (rmField p r) (s.cr c)).drawFlags false false := by
  unfold movRegCr
  simp only [finish_next_iff, bind_ok_iff]
  grind

theorem movCrReg_next_iff {i : Instr} {p : Prefixes} {w : Width} {n : BitVec 4} {r : BitVec 3} {s t : State} :
    movCrReg i p w n r s = .next t ↔ ∃ c, crAccess p n s = .ok c ∧
      ∃ u, s.writeCr c (s.readReg p.rex.isSome w (rmField p r)) = .ok u ∧ t = retire i s u.drawFlags false false := by
  unfold movCrReg
  simp only [finish_next_iff, bind_ok_iff]
  grind

theorem movRegDr_next_iff {i : Instr} {p : Prefixes} {w : Width} {n r : BitVec 3} {s t : State} :
    movRegDr i p w n r s = .next t ↔ ∃ d, drAccess p n s = .ok d ∧
      t = retire i s (s.writeReg p.rex.isSome w (rmField p r) (s.dr d)).drawFlags false false := by
  unfold movRegDr
  simp only [finish_next_iff, bind_ok_iff]
  grind

theorem execMovDrR32_next_iff {p : Prefixes} {mod : BitVec 2} {n r : BitVec 3} {s t : State} :
    execMovDrR32 p mod n r s = .next t ↔ ∃ d, drAccess p n s = .ok d ∧
      t = retire (.movDrR32 p mod n r) s (s.writeDr d (s.readReg p.rex.isSome .b32 (rmField p r))).drawFlags false false := by
  unfold execMovDrR32
  simp only [finish_next_iff, bind_ok_iff]
  grind

theorem execMovDrR64_next_iff {p : Prefixes} {mod : BitVec 2} {n r : BitVec 3} {s t : State} :
    execMovDrR64 p mod n r s = .next t ↔ ∃ d, drAccess p n s = .ok d ∧
      (d = .dr6 ∨ d = .dr7 → (s.x (rmField p r)).extractLsb' 32 32 = 0) ∧
      t = retire (.movDrR64 p mod n r) s (s.writeDr d (s.x (rmField p r))).drawFlags false false := by
  unfold execMovDrR64
  simp only [finish_next_iff, bind_ok_iff, writeDr64_ok_iff, State.readReg, truncTo]
  grind

/-! ## Every instruction completes in one of these ways -/

/-- The register or memory destination of an r/m operand. -/
theorem wrote_writeRm {i : Instr} {p : Prefixes} {w : Width} {v : Quad} {rm : Rm} {s u : State} {n : Nat}
    (hp : i.prefixes = p) (hc : isCrDr i = false) (hl : loadedSreg i = none) (hn : w.bytes = n)
    (ha : s.dataAccess i = s.rmAccess i p n .write rm) (h : s.writeRm i p w v rm = .ok u) : Wrote i s u := by
  subst hp
  rcases writeRm_ok_iff.1 h with ⟨n, rfl, rfl⟩ | ⟨m, pas, rfl, hr, rfl⟩
  · exact .reg _ _ _ hc hl (by simp [ha, State.rmAccess])
  · exact .store _ _ _ hc hl ha rfl (hn ▸ hr)

/-- The register destination of an instruction that reads memory. -/
theorem wrote_readRm {i : Instr} {p : Prefixes} {n : Nat} {rm : Rm} {s : State} (w : Width) (m : BitVec 4) (v : Quad)
    (hp : i.prefixes = p) (hc : isCrDr i = false) (hl : loadedSreg i = none)
    (ha : s.dataAccess i = s.rmAccess i p n .read rm) : Wrote i s (s.writeReg p.rex.isSome w m v) := by
  subst hp
  refine .reg _ _ _ hc hl ?_
  intro a h
  cases rm <;> simp [ha, State.rmAccess] at h
  simp [← h]

/-- What a completed instruction did (00_scope.md R19): its own writes, `pc`, `ss_shadow`, and the model's two counters. -/
theorem exec_next {i : Instr} {s t : State} (h : exec i s = .next t) :
    i.prefixes.lock = false ∧ ∃ u, Wrote i s u ∧ t = retire i s u (shadowAfter i s) (decide (loadedSreg i = some 2)) := by
  cases i
  case movRm8R8 | movRm8R8Rex | movRm16R16 | movRm32R32 | movRm64R64 =>
    obtain ⟨hl, u, hu, rfl⟩ := movRmReg_next_iff.1 h
    exact ⟨hl, u, wrote_writeRm rfl rfl rfl rfl rfl hu, rfl⟩
  case movR8Rm8 | movR8Rm8Rex | movR16Rm16 | movR32Rm32 | movR64Rm64 =>
    obtain ⟨hl, v, _, rfl⟩ := movRegRm_next_iff.1 h
    exact ⟨hl, _, wrote_readRm _ _ _ rfl rfl rfl rfl, rfl⟩
  case movAlMoffs8 | movAlMoffs8RexW | movAxMoffs16 | movEaxMoffs32 | movRaxMoffs64 =>
    obtain ⟨hl, pas, _, rfl⟩ := movAccMoffs_next_iff.1 h
    refine ⟨hl, _, .reg _ _ _ rfl rfl ?_, rfl⟩
    intro a ha
    simp only [State.dataAccess, State.moffsAccess, Option.some.injEq] at ha
    simp [← ha]
  case movMoffs8Al | movMoffs8AlRexW | movMoffs16Ax | movMoffs32Eax | movMoffs64Rax =>
    obtain ⟨hl, pas, hr, rfl⟩ := movMoffsAcc_next_iff.1 h
    exact ⟨hl, _, .store _ _ _ rfl rfl rfl rfl hr, rfl⟩
  case movR8Imm8 | movR8Imm8Rex | movR16Imm16 | movR32Imm32 | movR64Imm64 =>
    obtain ⟨hl, rfl⟩ := movPlusImm_next_iff.1 h
    exact ⟨hl, _, .reg _ _ _ rfl rfl (by simp [State.dataAccess]), rfl⟩
  case movRm8Imm8 | movRm8Imm8Rex | movRm16Imm16 | movRm32Imm32 | movRm64Imm32 =>
    obtain ⟨hl, u, hu, rfl⟩ := movRmImmediate_next_iff.1 h
    exact ⟨hl, u, wrote_writeRm rfl rfl rfl rfl rfl hu, rfl⟩
  case movRm16Sreg | movRm32Sreg | movRm64Sreg =>
    obtain ⟨hl, g, _, ⟨n, rfl, rfl⟩ | ⟨m, pas, rfl, hr, rfl⟩⟩ := movRmSreg_next_iff.1 h
    · exact ⟨hl, _, .reg _ _ _ rfl rfl (by simp [State.dataAccess, State.rmAccess]), rfl⟩
    · exact ⟨hl, _, .store _ _ _ rfl rfl rfl rfl hr, rfl⟩
  case movSregRm16 | movSregRm64 =>
    obtain ⟨hl, g, hf, hg, v, _, u, hu, rfl⟩ := movSregRm_next_iff.1 h
    exact ⟨hl, u, .sreg _ _ _ _ rfl rfl hf hg hu, by simp [shadowAfter, loadedSreg]⟩
  case movR32Cr | movR64Cr | movR64Cr8 =>
    obtain ⟨c, hc, rfl⟩ := movRegCr_next_iff.1 h
    exact ⟨(crAccess_ok_iff.1 hc).1, _, .crDrRead _ _ _ rfl (crAccess_ok_iff.1 hc).2.1, rfl⟩
  case movCrR32 | movCrR64 | movCr8R64 =>
    obtain ⟨c, hc, u, hu, rfl⟩ := movCrReg_next_iff.1 h
    exact ⟨(crAccess_ok_iff.1 hc).1, _, .crWrite _ _ _ rfl (crAccess_ok_iff.1 hc).2.1 hu, rfl⟩
  case movR32Dr | movR64Dr =>
    obtain ⟨d, hd, rfl⟩ := movRegDr_next_iff.1 h
    exact ⟨(drAccess_ok_iff.1 hd).1, _, .crDrRead _ _ _ rfl (drAccess_ok_iff.1 hd).2.2.1, rfl⟩
  case movDrR32 =>
    obtain ⟨d, hd, rfl⟩ := execMovDrR32_next_iff.1 h
    refine ⟨(drAccess_ok_iff.1 hd).1, _, .drWrite _ _ rfl (drAccess_ok_iff.1 hd).2.2.1 ?_, rfl⟩
    intro _
    ext k hk
    simp [State.readReg, truncTo]
  case movDrR64 =>
    obtain ⟨d, hd, hv, rfl⟩ := execMovDrR64_next_iff.1 h
    exact ⟨(drAccess_ok_iff.1 hd).1, _, .drWrite _ _ rfl (drAccess_ok_iff.1 hd).2.2.1 hv, rfl⟩

/-! ## Every instruction that does not complete stops in one of these ways -/

/-- A reason to stop that an instruction itself can have: any exception, #AC with code 0 only where alignment is checked, and of the
refusals only the want of ordinary memory. -/
def Stop.ofExec (s : State) : Stop → Prop
  | .refuse r => r = .unbackedMemory
  | .exc (.ac c) => c = 0 ∧ s.alignChecked = true
  | .exc _ => True

theorem resolve_stop {s : State} {g : SegReg} {ea : Quad} {n : Nat} {t : AccessType} {e : Stop} (h : s.resolve g ea n t = .error e) :
    e.ofExec s := by
  rcases resolve_error h with rfl | rfl | ⟨ha, rfl⟩ | ⟨c, la, rfl⟩ | rfl <;> simp [Stop.ofExec, *]

theorem readRm_stop {i : Instr} {p : Prefixes} {w : Width} {rm : Rm} {s : State} {e : Stop} (h : s.readRm i p w rm = .error e) :
    e.ofExec s := by
  obtain ⟨m, _, h⟩ := readRm_error_iff.1 h
  exact resolve_stop h

theorem writeRm_stop {i : Instr} {p : Prefixes} {w : Width} {v : Quad} {rm : Rm} {s : State} {e : Stop}
    (h : s.writeRm i p w v rm = .error e) : e.ofExec s := by
  obtain ⟨m, _, h⟩ := writeRm_error_iff.1 h
  exact resolve_stop h

theorem guardLock_stop {p : Prefixes} {s : State} {e : Stop} (h : guardLock p = .error e) : e.ofExec s := by
  rw [(guardLock_error_iff.1 h).2]; trivial

theorem loadSreg_stop {i : Instr} {p : Prefixes} {rm : Rm} {f : BitVec 3} {s : State} {e : Stop} (h : loadSreg i p f rm s = .error e) :
    e.ofExec s := by
  unfold loadSreg at h
  rcases bind_error_iff.1 h with h | ⟨_, _, h⟩
  · exact guardLock_stop h
  rcases bind_error_iff.1 h with h | ⟨_, _, h⟩
  · rw [(loadableSreg_error_iff.1 h).2]; trivial
  rcases bind_error_iff.1 h with h | ⟨_, _, h⟩
  · exact readRm_stop h
  rcases bind_error_iff.1 h with h | ⟨_, _, h⟩
  · rcases loadSeg_error h with ⟨c, rfl | rfl | rfl⟩ | ⟨c, la, rfl⟩ | rfl <;> trivial
  · simp at h

/-- The outcome is a next state or such a stop. -/
def Ends (s : State) (o : Host.Outcome State Fault Refusal) : Prop :=
  (∃ t, o = .next t) ∨ ∃ e, o = s.stop e ∧ e.ofExec s

theorem ends_finish {i : Instr} {s : State} {r : Res State} (h : ∀ e, r = .error e → e.ofExec s) : Ends s (finish i s r) := by
  cases r with
  | ok t => exact .inl ⟨_, rfl⟩
  | error e => exact .inr ⟨e, rfl, h e rfl⟩

/-- Every instruction completes, or stops for one of these reasons. -/
theorem exec_ends (i : Instr) (s : State) : Ends s (exec i s) := by
  cases i
  case movRm8R8 | movRm8R8Rex | movRm16R16 | movRm32R32 | movRm64R64 | movRm8Imm8 | movRm8Imm8Rex | movRm16Imm16 | movRm32Imm32 |
      movRm64Imm32 =>
    refine ends_finish fun e h => ?_
    rcases bind_error_iff.1 h with h | ⟨_, _, h⟩
    · exact guardLock_stop h
    · exact writeRm_stop h
  case movR8Rm8 | movR8Rm8Rex | movR16Rm16 | movR32Rm32 | movR64Rm64 =>
    refine ends_finish fun e h => ?_
    rcases bind_error_iff.1 h with h | ⟨_, _, h⟩
    · exact guardLock_stop h
    · rcases bind_error_iff.1 h with h | ⟨_, _, h⟩
      · exact readRm_stop h
      · simp at h
  case movAlMoffs8 | movAlMoffs8RexW | movAxMoffs16 | movEaxMoffs32 | movRaxMoffs64 =>
    refine ends_finish fun e h => ?_
    rcases bind_error_iff.1 h with h | ⟨_, _, h⟩
    · exact guardLock_stop h
    · rcases bind_error_iff.1 h with h | ⟨_, _, h⟩
      · exact resolve_stop (memRead_error_iff.1 h)
      · simp at h
  case movMoffs8Al | movMoffs8AlRexW | movMoffs16Ax | movMoffs32Eax | movMoffs64Rax =>
    refine ends_finish fun e h => ?_
    rcases bind_error_iff.1 h with h | ⟨_, _, h⟩
    · exact guardLock_stop h
    · exact resolve_stop (memWrite_error_iff.1 h)
  case movR8Imm8 | movR8Imm8Rex | movR16Imm16 | movR32Imm32 | movR64Imm64 =>
    refine ends_finish fun e h => ?_
    rcases bind_error_iff.1 h with h | ⟨_, _, h⟩
    · exact guardLock_stop h
    · simp at h
  case movRm16Sreg | movRm32Sreg | movRm64Sreg =>
    refine ends_finish fun e h => ?_
    rcases bind_error_iff.1 h with h | ⟨_, _, h⟩
    · exact guardLock_stop h
    · rcases bind_error_iff.1 h with h | ⟨_, _, h⟩
      · rw [(sregOf_error_iff.1 h).2]; trivial
      · split at h <;> exact writeRm_stop h
  case movSregRm16 | movSregRm64 =>
    simp only [exec, execMovSregRm16, execMovSregRm64, movSregRm]
    split
    · exact .inl ⟨_, rfl⟩
    · rename_i e h
      exact .inr ⟨e, rfl, loadSreg_stop h⟩
  case movR32Cr | movR64Cr | movR64Cr8 =>
    refine ends_finish fun e h => ?_
    rcases bind_error_iff.1 h with h | ⟨_, _, h⟩
    · rcases crAccess_error h with rfl | rfl <;> trivial
    · simp at h
  case movCrR32 | movCrR64 | movCr8R64 =>
    refine ends_finish fun e h => ?_
    rcases bind_error_iff.1 h with h | ⟨_, _, h⟩
    · rcases crAccess_error h with rfl | rfl <;> trivial
    · rcases bind_error_iff.1 h with h | ⟨_, _, h⟩
      · rcases writeCr_error h with rfl | rfl <;> trivial
      · simp at h
  case movR32Dr | movR64Dr | movDrR32 =>
    refine ends_finish fun e h => ?_
    rcases bind_error_iff.1 h with h | ⟨_, _, h⟩
    · rcases drAccess_error h with rfl | rfl | rfl <;> trivial
    · simp at h
  case movDrR64 =>
    refine ends_finish fun e h => ?_
    rcases bind_error_iff.1 h with h | ⟨_, _, h⟩
    · rcases drAccess_error h with rfl | rfl | rfl <;> trivial
    · rcases bind_error_iff.1 h with h | ⟨_, _, h⟩
      · rw [writeDr64_error h]; trivial
      · simp at h

/-- An instruction that faults raises an exception that it can have. -/
theorem exec_fault {i : Instr} {s : State} {f : Fault} (h : exec i s = .fault f) :
    ∃ e : Exception, f = s.raise e ∧ Stop.ofExec s (.exc e) := by
  rcases exec_ends i s with ⟨t, ht⟩ | ⟨e | r, he, ho⟩
  · simp [ht] at h
  · simp only [he, State.stop, Host.Outcome.fault.injEq] at h
    exact ⟨e, h.symm, ho⟩
  · simp [he, State.stop] at h

end Sys2Proof.Machine
end

