-- ==== Sys2Proof/Laws/Access.lean ====
section
/-! SUPPORT. Data accesses: when one is allowed, and that an instruction stops as its access does. -/

namespace Sys2Proof.Machine

/-- Translation stops at the first address whose translation faults. -/
theorem physical_error_of {s : State} {k : AccessKind} {las : List Quad} {j : Nat} {c : BitVec 32} (hj : j < las.length)
    (h : ∀ i (hi : i < j), ∃ pa, s.translate (las[i]'(by omega)) k = .phys pa) (hc : s.translate las[j] k = .pageFault c) :
    s.physical k las = .error (.exc (.pf c las[j])) := by
  induction las generalizing j with
  | nil => simp at hj
  | cons la las ih =>
    cases j with
    | zero => simp only [List.getElem_cons_zero] at hc; simp [State.physical, hc]
    | succ j =>
      obtain ⟨pa, hpa⟩ := h 0 (by omega)
      simp only [List.getElem_cons_zero] at hpa
      simp only [List.getElem_cons_succ] at hc
      have := ih (by simpa using hj) (fun i hi => by simpa using h (i + 1) (by omega)) hc
      simp [State.physical, hpa, this]

/-- The limit test as the rule states it (20_memory.md R68). -/
theorem inLimit_iff {d : Descriptor} {ea n : Nat} : inLimit d ea n = true ↔ InsideLimit d ea n := by
  unfold inLimit InsideLimit
  rcases d with ⟨k, dpl, pr, b, l, big, long⟩
  rcases k with ⟨w, ed⟩ | ⟨r, c⟩ | _
  · cases ed <;> cases big <;> simp
  all_goals simp

/-- The segment checks allow exactly the accesses that the rules allow (20_memory.md R67, R71). -/
theorem segCheck_ok_iff {s : State} {a : DataAccess} : s.segCheck a.seg a.ea a.bytes (a.type == .write) = .ok () ↔ s.segmentAllows a := by
  unfold State.segCheck State.segmentAllows State.throughNull State.kindAllows State.inProtected State.byteAddress
  simp only [← inLimit_iff]
  have hw : (a.type == AccessType.write) = true ↔ a.type = .write := by simp
  by_cases h64 : s.mode = .long64
  · simp only [h64, if_true]
    by_cases h : ((List.range a.bytes).all fun k => s.canonical (s.linear a.seg a.ea k)) = true
    · simp [h]; simpa using h
    · simp [h]; simpa using h
  · simp only [h64, if_false]
    cases hm : s.mode <;> simp_all <;> grind

/-- An instruction whose data access stops, stops as the access does (20_memory.md R64, R66). -/
theorem exec_of_resolve_error {i : Instr} {s : State} {a : DataAccess} {e : Stop} (hr : reachesAccess i) (ha : s.dataAccess i = some a)
    (h : s.resolve a.seg a.ea a.bytes a.type = .error e) : exec i s = s.stop e := by
  obtain ⟨hl, hs⟩ := hr
  have key : ∀ p : Prefixes, p.lock = false → guardLock p = .ok () := fun p h => guardLock_ok_iff.2 h
  cases i
  case movRm8R8 p rm _ | movRm8R8Rex p rm _ | movRm16R16 p rm _ | movRm32R32 p rm _ | movRm64R64 p rm _ =>
    cases rm <;> simp [State.dataAccess, State.rmAccess] at ha
    subst ha
    simp [exec,
      execMovRm8R8, execMovRm8R8Rex, execMovRm16R16, execMovRm32R32, execMovRm64R64, movRmReg, key p hl, State.writeRm, Width.bytes, memWrite_error_iff.2 h]
  case movRm8Imm8 p rm _ | movRm8Imm8Rex p rm _ | movRm16Imm16 p rm _ | movRm32Imm32 p rm _ | movRm64Imm32 p rm _ =>
    cases rm <;> simp [State.dataAccess, State.rmAccess] at ha
    subst ha
    simp [exec,
      execMovRm8Imm8, execMovRm8Imm8Rex, execMovRm16Imm16, execMovRm32Imm32, execMovRm64Imm32, movRmImmediate, key p hl, State.writeRm, Width.bytes, memWrite_error_iff.2 h]
  case movR8Rm8 p _ rm | movR8Rm8Rex p _ rm | movR16Rm16 p _ rm | movR32Rm32 p _ rm | movR64Rm64 p _ rm =>
    cases rm <;> simp [State.dataAccess, State.rmAccess] at ha
    subst ha
    simp [exec,
      execMovR8Rm8, execMovR8Rm8Rex, execMovR16Rm16, execMovR32Rm32, execMovR64Rm64, movRegRm, key p hl, State.readRm, Width.bytes, memRead_error_iff.2 h]
  case movRm16Sreg p rm f | movRm32Sreg p rm f | movRm64Sreg p rm f =>
    cases rm <;> simp [State.dataAccess, State.rmAccess] at ha
    subst ha
    obtain ⟨g, hg, _⟩ := segOfCode_of_lt (f := f) (by simpa [sregUsable] using hs)
    rw [← sregOf_ok_iff] at hg
    simp [exec,
      execMovRm16Sreg, execMovRm32Sreg, execMovRm64Sreg, movRmSreg, key p hl, hg, State.writeRm, Width.bytes, memWrite_error_iff.2 h]
  case movSregRm16 p f rm | movSregRm64 p f rm =>
    cases rm <;> simp [State.dataAccess, State.rmAccess] at ha
    subst ha
    simp only [sregUsable, Bool.and_eq_true, decide_eq_true_eq, bne_iff_ne] at hs
    obtain ⟨g, hg, hc⟩ := segOfCode_of_lt hs.1
    have hg := loadableSreg_ok_iff.2 ⟨hg, hc hs.2⟩
    simp [exec,
      execMovSregRm16, execMovSregRm64, movSregRm, loadSreg, key p hl, hg, State.readRm, Width.bytes, memRead_error_iff.2 h]
  case movAlMoffs8 p o | movAlMoffs8RexW p o | movAxMoffs16 p o | movEaxMoffs32 p o | movRaxMoffs64 p o =>
    simp [State.dataAccess, State.moffsAccess] at ha
    subst ha
    simp [exec,
      execMovAlMoffs8, execMovAlMoffs8RexW, execMovAxMoffs16, execMovEaxMoffs32, execMovRaxMoffs64, movAccMoffs, key p hl, Width.bytes, memRead_error_iff.2 h]
  case movMoffs8Al p o | movMoffs8AlRexW p o | movMoffs16Ax p o | movMoffs32Eax p o | movMoffs64Rax p o =>
    simp [State.dataAccess, State.moffsAccess] at ha
    subst ha
    simp [exec,
      execMovMoffs8Al, execMovMoffs8AlRexW, execMovMoffs16Ax, execMovMoffs32Eax, execMovMoffs64Rax, movMoffsAcc, key p hl, Width.bytes, memWrite_error_iff.2 h]
  all_goals simp [State.dataAccess] at ha

/-- An access stops with its segment checks first. -/
theorem resolve_of_segCheck {s : State} {a : DataAccess} {e : Stop} (h : s.segCheck a.seg a.ea a.bytes (a.type == .write) = .error e) :
    s.resolve a.seg a.ea a.bytes a.type = .error e := by
  simp [State.resolve, h]

end Sys2Proof.Machine
end

