-- ==== Sys2Proof/Laws/Decode.lean ====
section
/-! SUPPORT. What the decoder does with the byte after the legacy prefixes. -/

namespace Sys2Proof

/-- A REX byte is read as what it encodes (30_encoding.md R99). -/
@[simp] theorem rexByte_byte (x : Rex) : rexByte x.byte = some x := by
  rcases x with ⟨w, r, x, b⟩
  cases w <;> cases r <;> cases x <;> cases b <;> decide

/-- A REX byte is no legacy prefix (30_encoding.md R93, R99). -/
@[simp] theorem legacyByte_byte (x : Rex) : legacyByte x.byte = none := by
  rcases x with ⟨w, r, x, b⟩
  cases w <;> cases r <;> cases x <;> cases b <;> decide

/-- In 64-bit mode a REX byte is taken as the last prefix. -/
theorem decodeFrom_rex (p : Prefixes) (x : Rex) (bs : List Byte) :
    decodeFrom .c64 p (x.byte :: bs) = decodeAfterRex .c64 { p with rex := some x } bs := by
  simp [decodeFrom]

/-- A byte that is no prefix is taken as the opcode. -/
theorem decodeFrom_opcode {c : CodeSize} {b : Byte} (p : Prefixes) (bs : List Byte) (hl : legacyByte b = none)
    (hr : c = .c64 → rexByte b = none) : decodeFrom c p (b :: bs) = decodeOpcode c p b bs := by
  cases c <;> simp_all [decodeFrom]

/-- After a REX byte too. -/
theorem decodeAfterRex_opcode {c : CodeSize} {b : Byte} (p : Prefixes) (bs : List Byte) (hl : legacyByte b = none)
    (hr : rexByte b = none) : decodeAfterRex c p (b :: bs) = decodeOpcode c p b bs := by
  simp [decodeAfterRex, hl, hr]

end Sys2Proof
end

