-- ==== Sys2Proof/Laws/Flags.lean ====
section
/-! SUPPORT. The status flags: what drawing them changes. -/

namespace Sys2Proof.Machine

/-- Every flag but the six status flags keeps its value (10_state.md R29). -/
theorem withStatus_keeps (v : Quad) (d : BitVec 6) (n : Nat) (h : n ∉ [0, 2, 4, 6, 7, 11]) : (withStatus v d).getLsbD n = v.getLsbD n := by
  simp only [List.mem_cons, List.not_mem_nil, or_false, not_or] at h
  by_cases hn : n < 64
  · have hm : statusMask.getLsbD n = false := by
      revert h; revert hn; revert n
      decide
    have hf : ∀ b k, k ≠ n → (flagAt b k).getLsbD n = false := by
      intro b k hk
      simp only [flagAt, BitVec.getLsbD_shiftLeft, BitVec.getLsbD_setWidth]
      cases b
      · simp
      · simp; omega
    simp only [withStatus, BitVec.getLsbD_or, BitVec.getLsbD_and, BitVec.getLsbD_not, hm]
    rw [hf _ 0 (by omega), hf _ 2 (by omega), hf _ 4 (by omega), hf _ 6 (by omega), hf _ 7 (by omega), hf _ 11 (by omega)]
    simp [hn]
  · rw [BitVec.getLsbD_of_ge _ _ (by omega), BitVec.getLsbD_of_ge _ _ (by omega)]

/-- The six status flags take the drawn bits (10_state.md R28). -/
theorem withStatus_bits (v : Quad) (d : BitVec 6) :
    flagsCF (withStatus v d) = d.getLsbD 0 ∧ flagsPF (withStatus v d) = d.getLsbD 1 ∧ flagsAF (withStatus v d) = d.getLsbD 2 ∧
    flagsZF (withStatus v d) = d.getLsbD 3 ∧ flagsSF (withStatus v d) = d.getLsbD 4 ∧ flagsOF (withStatus v d) = d.getLsbD 5 := by
  simp [flagsCF, flagsPF, flagsAF, flagsZF, flagsSF, flagsOF, withStatus, statusMask, flagAt]

end Sys2Proof.Machine
end

