-- ==== Sys2Proof/Laws/Launch.lean ====
section
/-! SUPPORT. The conditions on launch states, as `step` checks them and as statements have them; what `step` does with them. -/

namespace Sys2Proof.Machine

/-- IA-32e mode (10_state.md R34). -/
theorem ia32e_iff {s : State} : s.ia32e = true ↔ s.mode = .long64 ∨ s.mode = .compat := by
  simp [State.ia32e]

/-- The check of a step is R311's conditions (a) to (e) (70_reset_and_hazards.md). -/
theorem launchOk_iff {s : State} : s.launchOk = true ↔ LaunchConditions s := by
  have hpc : s.launchPc = true ↔
      (s.mode ≠ .long64 → s.pc.extractLsb' 32 32 = 0) ∧ (s.mode = .long64 → s.canonical s.pc = true) := by
    unfold State.launchPc
    by_cases h : s.mode = .long64 <;> simp [h]
  simp only [State.launchOk, State.launchMode, State.launchCpl, State.launchCrs, State.launchDrs, Bool.and_eq_true, hpc,
    Bool.or_eq_true, Bool.not_eq_true', beq_iff_eq, bne_iff_ne, ne_eq]
  constructor
  · intro h
    constructor <;> grind [ia32e_iff]
  · intro h
    cases h
    grind [ia32e_iff]

/-- A state that breaks a condition is refused (R311). -/
theorem step_of_not_launch {s : State} (h : ¬ LaunchConditions s) : step s = .refused (.notInSpec .illFormedLaunch) := by
  rw [← launchOk_iff, Bool.not_eq_true] at h
  simp [step, h]

/-- In any other state a step goes on to the breakpoints and the fetch. -/
theorem step_of_launch {s : State} (h : LaunchConditions s) :
    step s =
      if s.breakpointsRefuse then .refused (.notInSpec .armedBreakpoints)
      else
        match s.fetchInstr with
        | .error e => s.stop e
        | .ok i => if s.nextPcOk i then exec i s else .refused (.notInSpec .pcWrap) := by
  rw [step, launchOk_iff.2 h]
  rfl

end Sys2Proof.Machine
end

