-- ==== Sys2Proof/Laws/PerInstr.lean ====
section
/-! SUPPORT. Statements made for every instruction, one lemma per constructor. -/

namespace Sys2Proof.Laws

/-! ## Lengths of the parts of an encoding (30_encoding.md R92) -/

@[simp] theorem prefixes_encode_length (p : Prefixes) : p.encode.length = p.length := by
  rcases p with ⟨l, s, o, a, r⟩
  cases l <;> cases s <;> cases o <;> cases a <;> cases r <;> rfl

@[simp] theorem rm_encode_length (g : BitVec 3) (rm : Rm) : (rm.encode g).length = rm.length := by
  rcases rm with n | m
  · rfl
  · cases m <;> try rename_i d
    all_goals first | rfl | (cases d <;> rfl)

@[simp] theorem moffs_encode_length (o : Moffs) : o.encode.length = o.length := by cases o <;> rfl

@[simp] theorem bytes16_length (v : BitVec 16) : (bytes16 v).length = 2 := rfl

@[simp] theorem bytes32_length (v : BitVec 32) : (bytes32 v).length = 4 := rfl

@[simp] theorem bytes64_length (v : BitVec 64) : (bytes64 v).length = 8 := rfl

namespace LengthOfEncoding

/-- The encoding of an instruction has the length that R92 counts. -/
def Statement (i : Instr) : Prop := (encode i).length = i.length

theorem movRm8R8 (p : Prefixes) (rm : Rm) (reg : BitVec 3) : Statement (.movRm8R8 p rm reg) := by
  simp [Statement, encode, Instr.length]
  omega

theorem movRm8R8Rex (p : Prefixes) (rm : Rm) (reg : BitVec 3) : Statement (.movRm8R8Rex p rm reg) := by
  simp [Statement, encode, Instr.length]
  omega

theorem movRm16R16 (p : Prefixes) (rm : Rm) (reg : BitVec 3) : Statement (.movRm16R16 p rm reg) := by
  simp [Statement, encode, Instr.length]
  omega

theorem movRm32R32 (p : Prefixes) (rm : Rm) (reg : BitVec 3) : Statement (.movRm32R32 p rm reg) := by
  simp [Statement, encode, Instr.length]
  omega

theorem movRm64R64 (p : Prefixes) (rm : Rm) (reg : BitVec 3) : Statement (.movRm64R64 p rm reg) := by
  simp [Statement, encode, Instr.length]
  omega

theorem movR8Rm8 (p : Prefixes) (reg : BitVec 3) (rm : Rm) : Statement (.movR8Rm8 p reg rm) := by
  simp [Statement, encode, Instr.length]
  omega

theorem movR8Rm8Rex (p : Prefixes) (reg : BitVec 3) (rm : Rm) : Statement (.movR8Rm8Rex p reg rm) := by
  simp [Statement, encode, Instr.length]
  omega

theorem movR16Rm16 (p : Prefixes) (reg : BitVec 3) (rm : Rm) : Statement (.movR16Rm16 p reg rm) := by
  simp [Statement, encode, Instr.length]
  omega

theorem movR32Rm32 (p : Prefixes) (reg : BitVec 3) (rm : Rm) : Statement (.movR32Rm32 p reg rm) := by
  simp [Statement, encode, Instr.length]
  omega

theorem movR64Rm64 (p : Prefixes) (reg : BitVec 3) (rm : Rm) : Statement (.movR64Rm64 p reg rm) := by
  simp [Statement, encode, Instr.length]
  omega

theorem movRm16Sreg (p : Prefixes) (rm : Rm) (sreg : BitVec 3) : Statement (.movRm16Sreg p rm sreg) := by
  simp [Statement, encode, Instr.length]
  omega

theorem movRm32Sreg (p : Prefixes) (rm : Rm) (sreg : BitVec 3) : Statement (.movRm32Sreg p rm sreg) := by
  simp [Statement, encode, Instr.length]
  omega

theorem movRm64Sreg (p : Prefixes) (rm : Rm) (sreg : BitVec 3) : Statement (.movRm64Sreg p rm sreg) := by
  simp [Statement, encode, Instr.length]
  omega

theorem movSregRm16 (p : Prefixes) (sreg : BitVec 3) (rm : Rm) : Statement (.movSregRm16 p sreg rm) := by
  simp [Statement, encode, Instr.length]
  omega

theorem movSregRm64 (p : Prefixes) (sreg : BitVec 3) (rm : Rm) : Statement (.movSregRm64 p sreg rm) := by
  simp [Statement, encode, Instr.length]
  omega

theorem movAlMoffs8 (p : Prefixes) (o : Moffs) : Statement (.movAlMoffs8 p o) := by
  simp [Statement, encode, Instr.length]
  omega

theorem movAlMoffs8RexW (p : Prefixes) (o : Moffs) : Statement (.movAlMoffs8RexW p o) := by
  simp [Statement, encode, Instr.length]
  omega

theorem movAxMoffs16 (p : Prefixes) (o : Moffs) : Statement (.movAxMoffs16 p o) := by
  simp [Statement, encode, Instr.length]
  omega

theorem movEaxMoffs32 (p : Prefixes) (o : Moffs) : Statement (.movEaxMoffs32 p o) := by
  simp [Statement, encode, Instr.length]
  omega

theorem movRaxMoffs64 (p : Prefixes) (o : Moffs) : Statement (.movRaxMoffs64 p o) := by
  simp [Statement, encode, Instr.length]
  omega

theorem movMoffs8Al (p : Prefixes) (o : Moffs) : Statement (.movMoffs8Al p o) := by
  simp [Statement, encode, Instr.length]
  omega

theorem movMoffs8AlRexW (p : Prefixes) (o : Moffs) : Statement (.movMoffs8AlRexW p o) := by
  simp [Statement, encode, Instr.length]
  omega

theorem movMoffs16Ax (p : Prefixes) (o : Moffs) : Statement (.movMoffs16Ax p o) := by
  simp [Statement, encode, Instr.length]
  omega

theorem movMoffs32Eax (p : Prefixes) (o : Moffs) : Statement (.movMoffs32Eax p o) := by
  simp [Statement, encode, Instr.length]
  omega

theorem movMoffs64Rax (p : Prefixes) (o : Moffs) : Statement (.movMoffs64Rax p o) := by
  simp [Statement, encode, Instr.length]
  omega

theorem movR8Imm8 (p : Prefixes) (r : BitVec 3) (imm : BitVec 8) : Statement (.movR8Imm8 p r imm) := by
  simp [Statement, encode, Instr.length]

theorem movR8Imm8Rex (p : Prefixes) (r : BitVec 3) (imm : BitVec 8) : Statement (.movR8Imm8Rex p r imm) := by
  simp [Statement, encode, Instr.length]

theorem movR16Imm16 (p : Prefixes) (r : BitVec 3) (imm : BitVec 16) : Statement (.movR16Imm16 p r imm) := by
  simp [Statement, encode, Instr.length]

theorem movR32Imm32 (p : Prefixes) (r : BitVec 3) (imm : BitVec 32) : Statement (.movR32Imm32 p r imm) := by
  simp [Statement, encode, Instr.length]

theorem movR64Imm64 (p : Prefixes) (r : BitVec 3) (imm : BitVec 64) : Statement (.movR64Imm64 p r imm) := by
  simp [Statement, encode, Instr.length]

theorem movRm8Imm8 (p : Prefixes) (rm : Rm) (imm : BitVec 8) : Statement (.movRm8Imm8 p rm imm) := by
  simp [Statement, encode, Instr.length]
  omega

theorem movRm8Imm8Rex (p : Prefixes) (rm : Rm) (imm : BitVec 8) : Statement (.movRm8Imm8Rex p rm imm) := by
  simp [Statement, encode, Instr.length]
  omega

theorem movRm16Imm16 (p : Prefixes) (rm : Rm) (imm : BitVec 16) : Statement (.movRm16Imm16 p rm imm) := by
  simp [Statement, encode, Instr.length]
  omega

theorem movRm32Imm32 (p : Prefixes) (rm : Rm) (imm : BitVec 32) : Statement (.movRm32Imm32 p rm imm) := by
  simp [Statement, encode, Instr.length]
  omega

theorem movRm64Imm32 (p : Prefixes) (rm : Rm) (imm : BitVec 32) : Statement (.movRm64Imm32 p rm imm) := by
  simp [Statement, encode, Instr.length]
  omega

theorem movR32Cr (p : Prefixes) (mod : BitVec 2) (cr r : BitVec 3) : Statement (.movR32Cr p mod cr r) := by
  simp [Statement, encode, Instr.length]

theorem movR64Cr (p : Prefixes) (mod : BitVec 2) (cr r : BitVec 3) : Statement (.movR64Cr p mod cr r) := by
  simp [Statement, encode, Instr.length]

theorem movR64Cr8 (p : Prefixes) (mod : BitVec 2) (r : BitVec 3) : Statement (.movR64Cr8 p mod r) := by
  simp [Statement, encode, Instr.length]

theorem movCrR32 (p : Prefixes) (mod : BitVec 2) (cr r : BitVec 3) : Statement (.movCrR32 p mod cr r) := by
  simp [Statement, encode, Instr.length]

theorem movCrR64 (p : Prefixes) (mod : BitVec 2) (cr r : BitVec 3) : Statement (.movCrR64 p mod cr r) := by
  simp [Statement, encode, Instr.length]

theorem movCr8R64 (p : Prefixes) (mod : BitVec 2) (r : BitVec 3) : Statement (.movCr8R64 p mod r) := by
  simp [Statement, encode, Instr.length]

theorem movR32Dr (p : Prefixes) (mod : BitVec 2) (dr r : BitVec 3) : Statement (.movR32Dr p mod dr r) := by
  simp [Statement, encode, Instr.length]

theorem movR64Dr (p : Prefixes) (mod : BitVec 2) (dr r : BitVec 3) : Statement (.movR64Dr p mod dr r) := by
  simp [Statement, encode, Instr.length]

theorem movDrR32 (p : Prefixes) (mod : BitVec 2) (dr r : BitVec 3) : Statement (.movDrR32 p mod dr r) := by
  simp [Statement, encode, Instr.length]

theorem movDrR64 (p : Prefixes) (mod : BitVec 2) (dr r : BitVec 3) : Statement (.movDrR64 p mod dr r) := by
  simp [Statement, encode, Instr.length]

end LengthOfEncoding

end Sys2Proof.Laws
end

