-- ==== Sys2Proof/Tests/Slice0.lean ====
section
/-! SUPPORT. Own tests: ill-formed terms, words written out from the encoding tables, one step each on the states of
95_test_vectors.md, and states that meet the hypotheses of the statements. -/

namespace Sys2Proof.Tests

open Sys2Proof.Machine

/-! ## Well-formedness: a term that each check refuses -/

/-- REX with the bits W, R, X, B. -/
def rexOf (w r x b : Bool) : Prefixes := { Prefixes.empty with rex := some ⟨w, r, x, b⟩ }

/-- The 66 prefix alone. -/
def p66 : Prefixes := { Prefixes.empty with opsize := true }

/-- The 67 prefix alone. -/
def p67 : Prefixes := { Prefixes.empty with addrsize := true }

/-- R99: no REX outside 64-bit mode. -/
theorem test_wf_rex : (Instr.movRm8R8Rex (rexOf false false false false) (.reg 0) 0).wellFormed .c32 = false := by decide
/-- R92: 16 bytes. -/
theorem test_wf_length :
    (Instr.movRm64Imm32 ⟨true, some .fs, true, true, some ⟨true, false, false, false⟩⟩ (.mem (.sib 0 0 0 (.d32 0))) 0).wellFormed .c64 =
      false := by decide
/-- R109: a 16-bit form needs 16-bit addressing; mod 0, r/m 6 is the displacement alone. -/
theorem test_wf_base16 : (MemForm.base16 0 .d0).wf .b32 = false ∧ (MemForm.base16 6 .d0).wf .b16 = false := by decide
theorem test_wf_abs16 : (MemForm.abs16 0).wf .b64 = false := by decide
/-- R110: r/m 4 is the SIB form; mod 0, r/m 5 is the displacement alone. -/
theorem test_wf_base :
    (MemForm.base 0 .d0).wf .b16 = false ∧ (MemForm.base 4 .d0).wf .b32 = false ∧ (MemForm.base 5 .d0).wf .b64 = false := by decide
theorem test_wf_disp : (MemForm.disp 0).wf .b16 = false := by decide
/-- R111: mod 0, base 5 has no base. -/
theorem test_wf_sib : (MemForm.sib 0 0 0 .d0).wf .b16 = false ∧ (MemForm.sib 0 0 5 .d0).wf .b32 = false := by decide
theorem test_wf_sibNoBase : (MemForm.sibNoBase 0 0 0).wf .b16 = false := by decide
/-- R115: the offset is as wide as the address size. -/
theorem test_wf_moffs : (Moffs.o16 0).wf .b32 = false ∧ (Moffs.o32 0).wf .b64 = false ∧ (Moffs.o64 0).wf .b32 = false := by decide
/-- R116: the rows that a REX prefix selects. -/
theorem test_wf_rex_rows :
    (Instr.movRm8R8 (rexOf false false false false) (.reg 0) 0).rowWf .c64 = false ∧
    (Instr.movR8Imm8Rex .empty 0 0).rowWf .c64 = false ∧ (Instr.movSregRm16 (rexOf true false false false) 0 (.reg 0)).rowWf .c64 = false ∧
    (Instr.movSregRm64 .empty 0 (.reg 0)).rowWf .c64 = false ∧ (Instr.movAlMoffs8RexW .empty (.o64 0)).rowWf .c64 = false := by decide
/-- R100, R116: the rows that the operand size selects. -/
theorem test_wf_size_rows :
    (Instr.movRm16R16 .empty (.reg 0) 0).rowWf .c64 = false ∧ (Instr.movRm32R32 p66 (.reg 0) 0).rowWf .c32 = false ∧
    (Instr.movRm64R64 .empty (.reg 0) 0).rowWf .c64 = false ∧ (Instr.movR64Imm64 p66 0 0).rowWf .c64 = false := by decide
/-- R117: the rows that the mode and REX.R select. -/
theorem test_wf_cr_rows :
    (Instr.movR32Cr .empty 3 0 0).rowWf .c64 = false ∧ (Instr.movR64Cr .empty 3 0 0).rowWf .c32 = false ∧
    (Instr.movR64Cr (rexOf false true false false) 3 0 0).rowWf .c64 = false ∧ (Instr.movR64Cr8 .empty 3 0).rowWf .c64 = false ∧
    (Instr.movDrR64 .empty 3 0 0).rowWf .c16 = false := by decide

/-! ## Decoding: words written out from 30_encoding.md (R102, R103, R116, R117), most of them vectors of 95_test_vectors.md -/

theorem test_decode_movRm8R8 : decode .c64 [0x88, 0xC3] = .ok (.movRm8R8 .empty (.reg 3) 0, []) := by rfl
theorem test_decode_movRm8R8Rex :
    decode .c64 [0x40, 0x88, 0xC7] = .ok (.movRm8R8Rex (rexOf false false false false) (.reg 7) 0, []) := by rfl
theorem test_decode_movRm16R16 : decode .c64 [0x66, 0x89, 0xC3] = .ok (.movRm16R16 p66 (.reg 3) 0, []) := by rfl
theorem test_decode_movRm32R32 : decode .c32 [0x89, 0xC3] = .ok (.movRm32R32 .empty (.reg 3) 0, []) := by rfl
theorem test_decode_movRm64R64 :
    decode .c64 [0x4D, 0x89, 0xC1] = .ok (.movRm64R64 (rexOf true true false true) (.reg 1) 0, []) := by rfl
theorem test_decode_movR8Rm8 : decode .c64 [0x8A, 0xE0] = .ok (.movR8Rm8 .empty 4 (.reg 0), []) := by rfl
/-- V38: RIP-relative. -/
theorem test_decode_movR8Rm8_disp :
    decode .c64 [0x8A, 0x05, 0x10, 0, 0, 0] = .ok (.movR8Rm8 .empty 0 (.mem (.disp 0x10)), []) := by rfl
theorem test_decode_movR8Rm8Rex :
    decode .c64 [0x40, 0x8A, 0xC7] = .ok (.movR8Rm8Rex (rexOf false false false false) 0 (.reg 7), []) := by rfl
/-- V37: SIB byte 4E is scale 1, index 1, base 6. -/
theorem test_decode_movR16Rm16 :
    decode .c64 [0x66, 0x8B, 0x5C, 0x4E, 0xFF] = .ok (.movR16Rm16 p66 3 (.mem (.sib 1 1 6 (.d8 0xFF))), []) := by rfl
/-- V54: 16-bit addressing. -/
theorem test_decode_movR16Rm16_base16 :
    decode .c16 [0x8B, 0x40, 0x02] = .ok (.movR16Rm16 .empty 0 (.mem (.base16 0 (.d8 2))), []) := by rfl
theorem test_decode_movR32Rm32 : decode .c64 [0x67, 0x8B, 0x03] = .ok (.movR32Rm32 p67 0 (.mem (.base 3 .d0)), []) := by rfl
/-- R111: mod 0, base 5. -/
theorem test_decode_movR32Rm32_sibNoBase :
    decode .c64 [0x8B, 0x04, 0x25, 1, 2, 3, 4] = .ok (.movR32Rm32 .empty 0 (.mem (.sibNoBase 0 4 0x04030201)), []) := by rfl
theorem test_decode_movR64Rm64 :
    decode .c64 [0x48, 0x8B, 0x46, 0x08] = .ok (.movR64Rm64 (rexOf true false false false) 0 (.mem (.base 6 (.d8 8))), []) := by rfl
theorem test_decode_movRm16Sreg : decode .c32 [0x66, 0x8C, 0xD8] = .ok (.movRm16Sreg p66 (.reg 0) 3, []) := by rfl
theorem test_decode_movRm32Sreg : decode .c64 [0x8C, 0x18] = .ok (.movRm32Sreg .empty (.mem (.base 0 .d0)) 3, []) := by rfl
theorem test_decode_movRm64Sreg :
    decode .c64 [0x48, 0x8C, 0xD8] = .ok (.movRm64Sreg (rexOf true false false false) (.reg 0) 3, []) := by rfl
theorem test_decode_movSregRm16 : decode .c32 [0x8E, 0xD0] = .ok (.movSregRm16 .empty 2 (.reg 0), []) := by rfl
theorem test_decode_movSregRm64 :
    decode .c64 [0x48, 0x8E, 0xD8] = .ok (.movSregRm64 (rexOf true false false false) 3 (.reg 0), []) := by rfl
theorem test_decode_movAlMoffs8 :
    decode .c64 [0xA0, 0x88, 0x77, 0x66, 0x55, 0x44, 0x33, 0x22, 0x11] = .ok (.movAlMoffs8 .empty (.o64 0x1122334455667788), []) := by
  rfl
theorem test_decode_movAlMoffs8RexW :
    decode .c64 [0x48, 0xA0, 1, 2, 3, 4, 5, 6, 7, 8] =
      .ok (.movAlMoffs8RexW (rexOf true false false false) (.o64 0x0807060504030201), []) := by rfl
theorem test_decode_movAxMoffs16 : decode .c16 [0xA1, 0x34, 0x12] = .ok (.movAxMoffs16 .empty (.o16 0x1234), []) := by rfl
theorem test_decode_movEaxMoffs32 :
    decode .c64 [0x67, 0xA1, 0x04, 0x20, 0, 0] = .ok (.movEaxMoffs32 p67 (.o32 0x2004), []) := by rfl
theorem test_decode_movRaxMoffs64 :
    decode .c64 [0x48, 0xA1, 1, 2, 3, 4, 5, 6, 7, 8] =
      .ok (.movRaxMoffs64 (rexOf true false false false) (.o64 0x0807060504030201), []) := by rfl
theorem test_decode_movMoffs8Al :
    decode .c32 [0xA2, 0x78, 0x56, 0x34, 0x12] = .ok (.movMoffs8Al .empty (.o32 0x12345678), []) := by rfl
theorem test_decode_movMoffs8AlRexW :
    decode .c64 [0x48, 0xA2, 1, 2, 3, 4, 5, 6, 7, 8] =
      .ok (.movMoffs8AlRexW (rexOf true false false false) (.o64 0x0807060504030201), []) := by rfl
theorem test_decode_movMoffs16Ax :
    decode .c32 [0x66, 0xA3, 0x78, 0x56, 0x34, 0x12] = .ok (.movMoffs16Ax p66 (.o32 0x12345678), []) := by rfl
theorem test_decode_movMoffs32Eax :
    decode .c32 [0xA3, 0x78, 0x56, 0x34, 0x12] = .ok (.movMoffs32Eax .empty (.o32 0x12345678), []) := by rfl
theorem test_decode_movMoffs64Rax :
    decode .c64 [0x48, 0xA3, 0x10, 0x20, 0, 0, 0, 0, 0, 0] =
      .ok (.movMoffs64Rax (rexOf true false false false) (.o64 0x2010), []) := by rfl
theorem test_decode_movR8Imm8 : decode .c64 [0xB4, 0x01] = .ok (.movR8Imm8 .empty 4 1, []) := by rfl
theorem test_decode_movR8Imm8Rex :
    decode .c64 [0x41, 0xB7, 0x7F] = .ok (.movR8Imm8Rex (rexOf false false false true) 7 0x7F, []) := by rfl
theorem test_decode_movR16Imm16 : decode .c64 [0x66, 0xBB, 0xEF, 0xBE] = .ok (.movR16Imm16 p66 3 0xBEEF, []) := by rfl
theorem test_decode_movR32Imm32 : decode .c64 [0xB8, 0, 0, 0, 0x80] = .ok (.movR32Imm32 .empty 0 0x80000000, []) := by rfl
theorem test_decode_movR64Imm64 :
    decode .c64 [0x48, 0xB8, 0xEF, 0xCD, 0xAB, 0x89, 0x67, 0x45, 0x23, 0x01] =
      .ok (.movR64Imm64 (rexOf true false false false) 0 0x0123456789ABCDEF, []) := by rfl
theorem test_decode_movRm8Imm8 :
    decode .c64 [0xC6, 0x46, 0x03, 0x7F] = .ok (.movRm8Imm8 .empty (.mem (.base 6 (.d8 3))) 0x7F, []) := by rfl
theorem test_decode_movRm8Imm8Rex :
    decode .c64 [0x40, 0xC6, 0xC7, 0x7F] = .ok (.movRm8Imm8Rex (rexOf false false false false) (.reg 7) 0x7F, []) := by rfl
/-- V48: SIB byte C5 is scale 3, index 0, base 5. -/
theorem test_decode_movRm16Imm16 :
    decode .c64 [0x66, 0xC7, 0x84, 0xC5, 0, 1, 0, 0, 0x34, 0x12] =
      .ok (.movRm16Imm16 p66 (.mem (.sib 3 0 5 (.d32 0x100))) 0x1234, []) := by rfl
theorem test_decode_movRm32Imm32 :
    decode .c64 [0xC7, 0xC0, 0, 0, 0, 0x80] = .ok (.movRm32Imm32 .empty (.reg 0) 0x80000000, []) := by rfl
theorem test_decode_movRm64Imm32 :
    decode .c64 [0x49, 0xC7, 0xC2, 0xFF, 0xFF, 0xFF, 0xFF] =
      .ok (.movRm64Imm32 (rexOf true false false true) (.reg 2) 0xFFFFFFFF, []) := by rfl
theorem test_decode_movR32Cr : decode .c32 [0x0F, 0x20, 0xC0] = .ok (.movR32Cr .empty 3 0 0, []) := by rfl
theorem test_decode_movR64Cr :
    decode .c64 [0x41, 0x0F, 0x20, 0xC0] = .ok (.movR64Cr (rexOf false false false true) 3 0 0, []) := by rfl
theorem test_decode_movR64Cr8 :
    decode .c64 [0x44, 0x0F, 0x20, 0xC2] = .ok (.movR64Cr8 (rexOf false true false false) 3 2, []) := by rfl
theorem test_decode_movCrR32 : decode .c32 [0x0F, 0x22, 0xD0] = .ok (.movCrR32 .empty 3 2 0, []) := by rfl
theorem test_decode_movCrR64 : decode .c64 [0x0F, 0x22, 0xD8] = .ok (.movCrR64 .empty 3 3 0, []) := by rfl
theorem test_decode_movCr8R64 :
    decode .c64 [0x44, 0x0F, 0x22, 0xC1] = .ok (.movCr8R64 (rexOf false true false false) 3 1, []) := by rfl
theorem test_decode_movR32Dr : decode .c16 [0x0F, 0x21, 0xE0] = .ok (.movR32Dr .empty 3 4 0, []) := by rfl
/-- V111: mod = 0 is a register all the same. -/
theorem test_decode_movR64Dr : decode .c64 [0x0F, 0x21, 0x38] = .ok (.movR64Dr .empty 0 7 0, []) := by rfl
theorem test_decode_movDrR32 : decode .c32 [0x0F, 0x23, 0xC3] = .ok (.movDrR32 .empty 3 0 3, []) := by rfl
theorem test_decode_movDrR64 :
    decode .c64 [0x41, 0x0F, 0x23, 0xC1] = .ok (.movDrR64 (rexOf false false false true) 3 0 1, []) := by rfl

/-- V25: C6 with reg = 1. V34: 48 outside 64-bit mode is no prefix, and no opcode of the table. -/
theorem test_decode_not_in_spec :
    decode .c64 [0xC6, 0xC8, 0] = .error .notInSpec ∧ decode .c32 [0x48, 0x89, 0xC3] = .error .notInSpec := ⟨rfl, rfl⟩
/-- V27, V28. -/
theorem test_decode_prefix_not_modelled :
    decode .c64 [0xF3, 0x89, 0xC3] = .error .prefixNotModelled ∧
    decode .c64 [0x48, 0x66, 0x89, 0xC3] = .error .prefixNotModelled := ⟨rfl, rfl⟩

/-! ## States of 95_test_vectors.md section 2 -/

/-- Consecutive bytes from an address. -/
def cells (a : Nat) (bs : List Byte) : List Host.Cell := (List.range bs.length).zipWith (fun k b => (a + k, b)) bs

/-- `Translate` is the identity with every permission on 0 to FFFF. -/
def identity : List KnownTranslation :=
  [.read, .write, .fetch].flatMap fun t => [⟨0, 0x10000, ⟨t, false⟩, .phys 0⟩, ⟨0, 0x10000, ⟨t, true⟩, .phys 0⟩]

/-- A flat segment of a kind. -/
def flat (sel : Selector) (kind : SegKind) (long : Bool) : SegmentRegister :=
  { sel := sel
    hidden :=
      { null := false
        d := { kind := kind, dpl := 0, present := true, base := 0, limit := 0xFFFFFFFF, big := !long, long := long } } }

/-- The segment registers flat; CS a code segment. -/
def withFlat (s : State) (long : Bool) : State :=
  { s with
    es := flat 0 (.data true false) false
    cs := flat 8 (.code true false) long
    ss := flat 0 (.data true false) false
    ds := flat 0 (.data true false) false
    fs := flat 0 (.data true false) false
    gs := flat 0 (.data true false) false }

/-- S64: 64-bit mode, the bytes of an instruction at 0x1000, some of the bytes around 0x2000. -/
def s64 (cpl : BitVec 2) (code : List Byte) : State :=
  { withFlat State.reset true with
    gpr := #v[0x1122334455667788, 0xFFFFFFFFFFFFFFFF, 0, 0xAAAAAAAAAAAAAAAA, 0x7FF0, 0x7000, 0x2000, 0x3000,
      0x8888888888888888, 9, 0, 0, 0xCCCCCCCCCCCCCCCC, 0x2008, 0, 0]
    pc := 0x1000
    cpl := cpl
    cr0 := 0x80050033
    cr4 := 0x20
    lme := true
    lma := true
    mem := Memory.writeAll [] (cells 0x1000 code ++ cells 0x1FFD [0xFD, 0xFE, 0xFF] ++ cells 0x2000 ((List.range 16).map (BitVec.ofNat 8)))
    backing := [⟨0, 0x10000⟩]
    cfg := { Params.default with translations := identity } }

/-- An entry of table T: a flat segment with an access byte (41_mov_sreg.md R187). -/
def entryT (access : Byte) : List Byte := [0xFF, 0xFF, 0, 0, 0, access, 0xCF, 0]

/-- S32: protected mode, 32-bit code, paging off, EAX as given, table T in the GDT at 0x4000 with the accessed bit of index 2 clear. -/
def s32 (cpl : BitVec 2) (eax : Quad) (code : List Byte) : State :=
  { withFlat State.reset false with
    gpr := #v[eax, 0xFFFFFFFF, 0, 0x2000, 0, 0, 0, 0, 0, 0, 0, 0, 0, 0, 0, 0]
    pc := 0x1000
    cpl := cpl
    cr0 := 0x11
    gdtr := { base := 0x4000, limit := 0x47 }
    mem := Memory.writeAll [] (cells 0x1000 code ++ cells 0x2000 [0x10, 0, 2, 3, 4] ++
      cells 0x4008 ([0x9B, 0x92, 0xF3, 0xF1, 0x13, 0x99, 0x9F, 0x89].flatMap entryT))
    backing := [⟨0, 0x10000⟩] }

/-- S16: real-address mode. -/
def s16 (code : List Byte) : State :=
  { State.reset with
    cs := .reset
    cr0 := 0x10
    pc := 0x7C00
    mem := Memory.writeAll [] (cells 0x7C00 code)
    backing := [⟨0, 0x100000⟩] }

/-- The same state with register `n` holding `v`. -/
def withX (n : BitVec 4) (v : Quad) (s : State) : State := s.setX n v

/-- The state after a completed step. -/
def after : Host.Outcome State Fault Refusal → Option State
  | .next t => some t
  | _ => none

/-- A field of the state after a step. -/
def seen {α : Type} (s : State) (f : State → α) : Option α := (after (step s)).map f

/-! ## One step each: vectors of 95_test_vectors.md sections 3.1 and 3.2 -/

theorem test_V2 : seen (s64 3 [0x88, 0xC7]) (fun t => t.x 3) = some 0xAAAAAAAAAAAA88AA := by decide
theorem test_V3 : seen (s64 3 [0x40, 0x88, 0xC7]) (fun t => t.x 7) = some 0x3088 := by decide
theorem test_V4 : seen (s64 3 [0x44, 0x88, 0xC1]) (fun t => t.x 1) = some 0xFFFFFFFFFFFFFF88 := by decide
theorem test_V6 : seen (s64 3 [0x89, 0xC3]) (fun t => t.x 3) = some 0x55667788 := by decide
/-- Outside 64-bit mode bits 63:32 are a free value (entry 23). -/
theorem test_V30 : seen (s32 0 0x55667788 [0x89, 0xC3]) (fun t => t.x 3) = some (Config.freeGprUpper 0 ++ (0x55667788 : BitVec 32)) := by
  rfl
theorem test_V32 : seen (withX 0 0x7788 (withX 3 0xAAAA0000 (s16 [0x89, 0xC3]))) (fun t => (t.x 3, t.pc)) = some (0xAAAA7788, 0x7C02) := by
  decide
theorem test_V9 : seen (s64 3 [0x4D, 0x89, 0xC1]) (fun t => (t.x 9, t.pc)) = some (0x8888888888888888, 0x1003) := by decide
theorem test_V10 : seen (s64 3 [0x8A, 0xE0]) (fun t => t.x 0) = some 0x1122334455668888 := by decide
/-- R146: MOV AL, DIL. -/
theorem test_8A_rex : seen (s64 3 [0x40, 0x8A, 0xC7]) (fun t => t.x 0) = some 0x1122334455667700 := by decide
theorem test_V12 : seen (s64 3 [0xB0, 0x7F]) (fun t => t.x 0) = some 0x112233445566777F := by decide
theorem test_V13 : seen (s64 3 [0xB4, 0x01]) (fun t => t.x 0) = some 0x1122334455660188 := by decide
theorem test_V14 : seen (s64 3 [0x40, 0xB4, 0x01]) (fun t => t.x 4) = some 0x7F01 := by decide
theorem test_V16 : seen (s64 3 [0x66, 0xBB, 0xEF, 0xBE]) (fun t => t.x 3) = some 0xAAAAAAAAAAAABEEF := by decide
theorem test_V17 : seen (s64 3 [0xB8, 0, 0, 0, 0x80]) (fun t => (t.x 0, t.pc)) = some (0x80000000, 0x1005) := by decide
theorem test_V18 :
    seen (s64 3 [0x48, 0xB8, 0xEF, 0xCD, 0xAB, 0x89, 0x67, 0x45, 0x23, 0x01]) (fun t => (t.x 0, t.pc)) =
      some (0x0123456789ABCDEF, 0x100A) := by decide
theorem test_V20 : seen (s64 3 [0x48, 0xC7, 0xC0, 0, 0, 0, 0x80]) (fun t => t.x 0) = some 0xFFFFFFFF80000000 := by decide
theorem test_V22 : seen (s64 3 [0xC7, 0xC0, 0, 0, 0, 0x80]) (fun t => t.x 0) = some 0x80000000 := by decide
theorem test_V23 : seen (s64 3 [0xC6, 0xC0, 0xFF]) (fun t => t.x 0) = some 0x11223344556677FF := by decide
theorem test_V24 : seen (s64 3 [0x66, 0xC7, 0xC1, 0x34, 0x12]) (fun t => t.x 1) = some 0xFFFFFFFFFFFF1234 := by decide
/-- R165 with REX: byte register 7 is DIL. -/
theorem test_C6_rex : seen (s64 3 [0x40, 0xC6, 0xC7, 0x7F]) (fun t => t.x 7) = some 0x307F := by decide
theorem test_V35 : seen (s64 3 [0x8B, 0x06]) (fun t => t.x 0) = some 0x03020100 := by decide
theorem test_V36 : seen (s64 3 [0x48, 0x8B, 0x46, 0x08]) (fun t => t.x 0) = some 0x0F0E0D0C0B0A0908 := by decide
theorem test_V37 : seen (s64 3 [0x66, 0x8B, 0x5C, 0x4E, 0xFF]) (fun t => t.x 3) = some 0xAAAAAAAAAAAAFEFD := by decide
/-- The form of V38: 0x1006 + 0xFF7 is 0x1FFD. -/
theorem test_V38_rip : seen (s64 3 [0x8A, 0x05, 0xF7, 0x0F, 0, 0]) (fun t => t.x 0) = some 0x11223344556677FD := by decide
theorem test_V39 : seen (s64 3 [0x88, 0x0E]) (fun t => (Memory.read t.mem 0x2000, Memory.read t.mem 0x2001)) = some (0xFF, 0x01) := by
  decide
theorem test_V40 :
    seen (s64 3 [0x4C, 0x89, 0x24, 0x24]) (fun t => (t.loadAt (List.range' 0x7FF0 8), Memory.read t.mem 0x7FF8)) =
      some (0xCCCCCCCCCCCCCCCC, 0) := by decide
theorem test_V41 : seen (s64 3 [0x49, 0x8B, 0x45, 0x00]) (fun t => t.x 0) = some 0x0F0E0D0C0B0A0908 := by decide
theorem test_V43 : step (s64 3 [0x8B, 0x03]) = .fault ((s64 3 [0x8B, 0x03]).raise (.gp 0)) := by rfl
theorem test_V44 :
    step (withX 5 0x0000800000000000 (s64 3 [0x8B, 0x45, 0x00])) =
      .fault ((withX 5 0x0000800000000000 (s64 3 [0x8B, 0x45, 0x00])).raise (.ss 0)) := by rfl
theorem test_V45 :
    step (s64 3 [0xA0, 0x88, 0x77, 0x66, 0x55, 0x44, 0x33, 0x22, 0x11]) =
      .fault ((s64 3 [0xA0, 0x88, 0x77, 0x66, 0x55, 0x44, 0x33, 0x22, 0x11]).raise (.gp 0)) := by rfl
theorem test_V46 :
    seen (s64 3 [0x48, 0xA3, 0x10, 0x20, 0, 0, 0, 0, 0, 0]) (fun t => (t.loadAt (List.range' 0x2010 8), t.pc)) =
      some (0x1122334455667788, 0x100A) := by decide
theorem test_V47 : seen (s64 3 [0x67, 0xA1, 0x04, 0x20, 0, 0]) (fun t => t.x 0) = some 0x07060504 := by decide
theorem test_A0_rexW : seen (s64 3 [0x48, 0xA0, 0x0F, 0x20, 0, 0, 0, 0, 0, 0]) (fun t => t.x 0) = some 0x112233445566770F := by decide
theorem test_A0 : seen (s32 0 0x11223344 [0xA0, 0x02, 0x20, 0, 0]) (fun t => t.x 0) = some 0x11223302 := by decide
theorem test_A1_16 : seen (s64 3 [0x66, 0x67, 0xA1, 0x0E, 0x20, 0, 0]) (fun t => t.x 0) = some 0x1122334455660F0E := by decide
theorem test_A1_64 : seen (s64 3 [0x48, 0xA1, 0x08, 0x20, 0, 0, 0, 0, 0, 0]) (fun t => t.x 0) = some 0x0F0E0D0C0B0A0908 := by decide
theorem test_A2 : seen (s32 0 0x11223344 [0xA2, 0x01, 0x20, 0, 0]) (fun t => t.loadAt (List.range' 0x2000 3)) = some 0x024410 := by decide
theorem test_A2_rexW :
    seen (s64 3 [0x48, 0xA2, 0x02, 0x20, 0, 0, 0, 0, 0, 0]) (fun t => t.loadAt (List.range' 0x2000 4)) = some 0x03880100 := by decide
theorem test_A3_16 :
    seen (s32 0 0x11223344 [0x66, 0xA3, 0, 0x20, 0, 0]) (fun t => t.loadAt (List.range' 0x2000 4)) = some 0x03023344 := by decide
theorem test_A3_32 :
    seen (s32 0 0x11223344 [0xA3, 0, 0x20, 0, 0]) (fun t => t.loadAt (List.range' 0x2000 5)) = some 0x0411223344 := by decide
/-- P2, its third instruction. -/
theorem test_C6_mem : seen (s64 3 [0xC6, 0x46, 0x03, 0x7F]) (fun t => t.loadAt (List.range' 0x2000 5)) = some 0x047F020100 := by decide
/-- P2, its second instruction. -/
theorem test_C7_rexW_mem :
    seen (s64 3 [0x48, 0xC7, 0x06, 0xFE, 0xFF, 0xFF, 0xFF]) (fun t => t.loadAt (List.range' 0x2000 8)) = some 0xFFFFFFFFFFFFFFFE := by
  decide
theorem test_V48 :
    step (s64 3 [0x66, 0xC7, 0x84, 0xC5, 0, 1, 0, 0, 0x34, 0x12]) =
      .fault ((s64 3 [0x66, 0xC7, 0x84, 0xC5, 0, 1, 0, 0, 0x34, 0x12]).raise (.ss 0)) := by rfl
/-- V49 with FS.base 0x1F00 and RAX 0x100. -/
theorem test_V49 :
    seen { withX 0 0x100 (s64 3 [0x64, 0x8B, 0x00]) with fs := { SegmentRegister.reset with hidden := Hidden.reset 0x1F00 } }
      (fun t => t.x 0) = some 0x03020100 := by decide
theorem test_V50 :
    step { s64 3 [0x8B, 0x46, 0x01] with flags := 0x40002 } =
      .fault (State.raise { s64 3 [0x8B, 0x46, 0x01] with flags := 0x40002 } (.ac 0)) := by rfl
/-- The state of V52 and V53: page 0x3000 answers page fault 7. -/
def s64fault (code : List Byte) : State :=
  { s64 3 code with
    cfg := { Params.default with
      translations := [⟨0x3000, 0x1000, ⟨.read, true⟩, .pageFault 7⟩, ⟨0x3000, 0x1000, ⟨.write, true⟩, .pageFault 7⟩] ++ identity } }
theorem test_V52 : step (s64fault [0x8B, 0x07]) = .fault ((s64fault [0x8B, 0x07]).raise (.pf 7 0x3000)) := by rfl
theorem test_V53 :
    step (withX 7 0x2FFC (s64fault [0x48, 0x89, 0x07])) =
      .fault ((withX 7 0x2FFC (s64fault [0x48, 0x89, 0x07])).raise (.pf 7 0x3000)) := by rfl
theorem test_V54 :
    seen (withX 3 0xFFFF (withX 6 2 { s16 [0x8B, 0x40, 0x02] with mem := Memory.writeAll [] (cells 3 [0xCD, 0xAB] ++ cells 0x7C00 [0x8B, 0x40, 2]) }))
      (fun t => (t.x 0, t.pc)) = some (0xABCD, 0x7C03) := by decide
theorem test_V55a :
    seen (withX 5 0x100 (withX 7 0x10 (withX 0 0xBEEF
      { s16 [0x89, 0x43, 0xFE] with ss := { sel := 0x2000, hidden := Hidden.reset 0x20000 } })))
      (fun t => t.loadAt (List.range' 0x2010E 2)) = some 0xBEEF := by decide
/-- In real-address mode the exception has no error code (R274). -/
theorem test_V55b :
    step (withX 3 0xFFFF (s16 [0x8B, 0x0F])) = .fault (.gp none (withX 3 0xFFFF (s16 [0x8B, 0x0F]))) := by rfl

/-! ## One step each: vectors of 95_test_vectors.md section 3.3 -/

/-- V56: SS takes index 2, `ss_shadow` is set, and the accessed bit of its entry (R188) is set. -/
theorem test_V56 :
    seen (s32 0 0x10 [0x8E, 0xD0]) (fun t => (t.ss, t.ssShadow, t.pc, Memory.read t.mem 0x4015)) =
      some (flat 0x10 (.data true false) false, true, 0x1002, 0x93) := by decide
theorem test_V57 : step (s32 0 0 [0x8E, 0xD0]) = .fault ((s32 0 0 [0x8E, 0xD0]).raise (.gp 0)) := by rfl
theorem test_V61 : step (s32 0 0x28 [0x8E, 0xD0]) = .fault ((s32 0 0x28 [0x8E, 0xD0]).raise (.ss 0x28)) := by rfl
theorem test_V62 : step (s32 0 0x48 [0x8E, 0xD0]) = .fault ((s32 0 0x48 [0x8E, 0xD0]).raise (.gp 0x48)) := by rfl
theorem test_V64 : seen (s32 3 3 [0x8E, 0xD8]) (fun t => (t.ds.sel, t.ds.hidden.null)) = some (3, true) := by rfl
theorem test_V65 : seen (s32 3 0x1B [0x8E, 0xD8]) (fun t => (t.ds.sel, t.ds.hidden.d.dpl, t.ssShadow)) = some (0x1B, 3, false) := by
  decide
theorem test_V69 : step (s32 0 0x30 [0x8E, 0xE0]) = .fault ((s32 0 0x30 [0x8E, 0xE0]).raise (.gp 0x30)) := by rfl
theorem test_V70 : seen (s32 3 0x3B [0x8E, 0xE8]) (fun t => t.gs.sel) = some 0x3B := by decide
theorem test_V74 : step (s32 0 8 [0x8E, 0xC8]) = .fault ((s32 0 8 [0x8E, 0xC8]).raise .ud) := by rfl
theorem test_V77 :
    seen { s32 0 0xFFFFFFFF [0x66, 0x8C, 0xD8] with ds := flat 0x2B (.data true false) false } (fun t => t.x 0) = some 0xFFFF002B := by
  decide
theorem test_V78 :
    seen { s64 3 [0x48, 0x8C, 0xD8] with ds := flat 0x2B (.data true false) false } (fun t => t.x 0) = some 0x2B := by decide
theorem test_V79 :
    seen { withX 0 0x2000 (s64 3 [0x8C, 0x18]) with ds := flat 0x2B (.data true false) false }
      (fun t => t.loadAt (List.range' 0x2000 3)) = some 0x02002B := by decide
theorem test_V82 : step (withX 0 3 (s64 3 [0x8E, 0xD0])) = .fault ((withX 0 3 (s64 3 [0x8E, 0xD0])).raise (.gp 0)) := by rfl
theorem test_V84 :
    seen (withX 0 0x1234 (s16 [0x8E, 0xD8])) (fun t => (t.ds.sel, t.ds.hidden.d.base)) = some (0x1234, 0x12340) := by decide
theorem test_V84b :
    seen (withX 0 0xFFFFFFFFFFFF0000 (s64 3 [0x48, 0x8E, 0xD8])) (fun t => (t.ds.sel, t.pc)) = some (0, 0x1003) := by decide
theorem test_V84c : seen (s32 0 0 [0x8E, 0x13]) (fun t => (t.ss.sel, t.ssShadow)) = some (0x10, true) := by decide

/-- R200, U6: a third MOV SS in a row, after a second that left `ss_shadow` false. -/
theorem test_third_mov_ss :
    seen { s32 0 0x10 [0x8E, 0xD0] with afterMovSs := true } (fun t => (t.ssShadow, t.afterMovSs)) = some (Config.freeSsShadow 0, true) := by
  rfl
/-- R67 (a), U5: a store through SS after a NULL selector was loaded into it, in compatibility mode. -/
def compatNullSs : State :=
  { s64 0 [0x89, 0x04, 0x24] with
    cs := flat 8 (.code true false) false
    ss := { sel := 0, hidden := { (flat 0 .system false).hidden with null := true } } }
theorem test_null_ss : compatNullSs.mode = .compat ∧ step compatNullSs = .fault (compatNullSs.raise (.gp 0)) := ⟨by decide, rfl⟩

/-! ## One step each: vectors of 95_test_vectors.md sections 3.4 and 3.5 -/

theorem test_V86 : step (s32 0 0x20000011 [0x0F, 0x22, 0xC0]) = .fault ((s32 0 0x20000011 [0x0F, 0x22, 0xC0]).raise (.gp 0)) := by rfl
theorem test_V87 : seen (s32 0 0x851 [0x0F, 0x22, 0xC0]) (fun t => (t.cr0, t.pc)) = some (0x11, 0x1003) := by decide
theorem test_V89 : step (withX 0 0x50033 (s64 0 [0x0F, 0x22, 0xC0])) =
    .fault ((withX 0 0x50033 (s64 0 [0x0F, 0x22, 0xC0])).raise (.gp 0)) := by rfl
theorem test_V90 : seen (s64 0 [0x0F, 0x20, 0xC0]) (fun t => (t.x 0, t.pc)) = some (0x80050033, 0x1003) := by decide
theorem test_V91 : step (s64 3 [0x0F, 0x20, 0xC0]) = .fault ((s64 3 [0x0F, 0x20, 0xC0]).raise (.gp 0)) := by rfl
theorem test_V92 : step { withX 0 0x20020 (s64 0 [0x0F, 0x22, 0xE0]) with cr3 := 0x1005 } =
    .fault (State.raise { withX 0 0x20020 (s64 0 [0x0F, 0x22, 0xE0]) with cr3 := 0x1005 } (.gp 0)) := by rfl
theorem test_V93 : seen { withX 0 0x20020 (s64 0 [0x0F, 0x22, 0xE0]) with cr3 := 0x1000 } (fun t => t.cr4) = some 0x20020 := by decide
theorem test_V97 : step (withX 0 0x8000000000123000 (s64 0 [0x0F, 0x22, 0xD8])) =
    .fault ((withX 0 0x8000000000123000 (s64 0 [0x0F, 0x22, 0xD8])).raise (.gp 0)) := by rfl
theorem test_V98 :
    seen { withX 0 0x8000000000123005 (s64 0 [0x0F, 0x22, 0xD8]) with cr4 := 0x20020 } (fun t => t.cr3) = some 0x123005 := by decide
theorem test_V99 : seen (withX 1 5 (s64 0 [0x44, 0x0F, 0x22, 0xC1])) (fun t => (t.cr8, t.pc)) = some (5, 0x1004) := by decide
theorem test_V99a : step (withX 1 0x10 (s64 0 [0x44, 0x0F, 0x22, 0xC1])) =
    .fault ((withX 1 0x10 (s64 0 [0x44, 0x0F, 0x22, 0xC1])).raise (.gp 0)) := by rfl
theorem test_V99b : seen { s64 0 [0x44, 0x0F, 0x20, 0xC0] with cr8 := 3 } (fun t => t.x 0) = some 3 := by decide
theorem test_V99h : seen (s64 0 [0x0F, 0x20, 0x04]) (fun t => (t.x 4, t.pc)) = some (0x80050033, 0x1003) := by decide
theorem test_V99m : seen (s32 0 0x12345678 [0x0F, 0x22, 0xD0]) (fun t => t.cr2) = some 0x12345678 := by decide
theorem test_V100 :
    seen (s32 0 0 [0x0F, 0x21, 0xE0]) (fun t => t.x 0) = some (Config.freeGprUpper 0 ++ (0xFFFF0FF0 : BitVec 32)) := by rfl
theorem test_V101 : step { s32 0 0 [0x0F, 0x21, 0xE0] with cr4 := 8 } =
    .fault (State.raise { s32 0 0 [0x0F, 0x21, 0xE0] with cr4 := 8 } .ud) := by rfl
theorem test_V103 : seen (withX 3 0x401000 (s32 0 0 [0x0F, 0x23, 0xC3])) (fun t => (t.dr0, t.pc)) = some (0x401000, 0x1003) := by decide
theorem test_V105 : step { s32 0 0 [0x0F, 0x21, 0xC0] with dr7 := 0x2400 } =
    .fault (State.raise { s32 0 0 [0x0F, 0x21, 0xC0] with dr7 := 0x2400 } .db) := by rfl
theorem test_V107 : step (withX 0 0x100000400 (s64 0 [0x0F, 0x23, 0xF8])) =
    .fault ((withX 0 0x100000400 (s64 0 [0x0F, 0x23, 0xF8])).raise (.gp 0)) := by rfl
/-- R48: DR6 after a write of 0, its fixed bits with RTM among them. -/
theorem test_dr6_fixed : seen (s32 0 0 [0x0F, 0x23, 0xF0]) (fun t => t.dr6) = some 0xFFFF0FF0 := by decide
theorem test_V109 : seen (s64 0 [0x41, 0x0F, 0x23, 0xC1]) (fun t => (t.dr0, t.pc)) = some (9, 0x1004) := by decide
theorem test_V110 : step (s64 0 [0x44, 0x0F, 0x21, 0xC0]) = .fault ((s64 0 [0x44, 0x0F, 0x21, 0xC0]).raise .ud) := by rfl
theorem test_V111 : seen (s64 0 [0x0F, 0x21, 0x38]) (fun t => (t.x 0, t.pc)) = some (0x400, 0x1003) := by decide
/-- The status flags after V90 are the draws, each at its place; every other flag is as it was (R28, R29). -/
theorem test_V90_flags : (withStatus 0x40002 0 = 0x40002) ∧ (withStatus 2 0x3F = 0x8D7) ∧ (withStatus 2 0x20 = 0x802) := by decide

/-! ## Words of the opcode table, at reset (entry 28) -/

theorem test_table_word_plain : decodeTableWord 16 0xC388 = some (.movRm8R8 .empty (.reg 3) 0) := by rfl
theorem test_table_word_rex : decodeTableWord 16 0x8848 = some (.movRm8R8Rex (rexOf true false false false) (.mem (.base 0 .d0)) 0) := by rfl
theorem test_table_word_escape : decodeTableWord 16 0xC022 = some (.movCrR32 .empty 3 0 0) := by rfl
theorem test_with_fetch_word : seen (State.reset.withFetchWord 16 0x12B0) (fun t => (t.x 0, t.pc)) = some (0x12, 0xFFF2) := by decide

/-! ## Witnesses: concrete states and operands that meet the hypotheses of each statement, clause by clause -/

/-- MOV AL-size store to [EBX] and its access in S32. -/
def store8 : Instr := .movRm8R8 .empty (.mem (.base 3 .d0)) 1
/-- MOV of 4 bytes from [EBX]. -/
def load32 : Instr := .movR32Rm32 .empty 0 (.mem (.base 3 .d0))
/-- MOV SS from AX. -/
def loadSs : Instr := .movSregRm16 .empty 2 (.reg 0)

theorem witness_DecodeEncode : (Instr.movRm16Imm16 p66 (.mem (.sib 3 0 5 (.d32 0x100))) 0x1234).wellFormed .c64 = true := by decide
/-- No prefix, and two prefixes in the order that the encoder does not write. -/
theorem witness_DecodedIsWellFormed :
    decode .c16 [0xB0, 1, 2] = .ok (.movR8Imm8 .empty 0 1, [2]) ∧
    decode .c32 [0x67, 0x66, 0xB8, 1, 2, 3] = .ok (.movR16Imm16 { p66 with addrsize := true } 0 0x201, [3]) := ⟨rfl, rfl⟩
theorem witness_SizeTables :
    (rexOf true false false false).rex = some ⟨true, false, false, false⟩ ∧ (rexOf false true true true).rex = some ⟨false, true, true, true⟩ ∧
    p66.rex = none ∧ p66.opsize = true ∧ p67.addrsize = true := by decide
/-- S64 on a part without Intel 64, with EFER.LMA as given. -/
def s64no64 (lma : Bool) (code : List Byte) : State :=
  { s64 0 code with lma := lma, cfg := { (s64 0 code).cfg with arch64 := false } }
/-- R6: such a part has no IA-32e mode. A launch state with EFER.LMA set is refused (R311 (a)); with it clear 40 88 C7 is no REX form (R119,
R121), and setting CR0.PG with EFER.LME set leaves EFER.LMA clear. -/
theorem test_no_intel64 :
    (s64no64 true []).mode = .prot ∧ (s64no64 true []).codeSize = .c16 ∧
    step (s64no64 true [0x40, 0x88, 0xC7]) = .refused (.notInSpec .illFormedLaunch) ∧
    step (s64no64 false [0x40, 0x88, 0xC7]) = .refused (.notInSpec .encoding) ∧
    State.cr0Faults { s64no64 false [] with cr0 := 0x11 } 0x80000011 = false ∧
    (State.withCr0 { s64no64 false [] with cr0 := 0x11 } 0x80000011).lma = false := ⟨rfl, rfl, rfl, rfl, rfl, rfl⟩
/-- A state in each mode, and one of a part without Intel 64. -/
theorem witness_ModeRule :
    (s64no64 true []).cfg.arch64 = false ∧
    (s16 []).mode = .real ∧ (s64 0 []).mode = .long64 ∧ compatNullSs.mode = .compat ∧
    State.mode { s32 3 0 [] with flags := 0x20002 } = .v86 ∧ (s32 0 0 []).mode = .prot := by decide
/-- The bytes next to the opcodes that exist, a REX byte outside 64-bit mode, and C7 with reg = 7. -/
theorem witness_DecodeRefusals :
    (∀ b ∈ ([0x87, 0x8D, 0x8F, 0x9F, 0xA4, 0xAF, 0xC0, 0xC5, 0xC8, 0x00, 0xFF] : List Byte), legacyByte b = none ∧ rexByte b = none ∧
      b.toNat ∉ [0x0F, 0x88, 0x89, 0x8A, 0x8B, 0x8C, 0x8E, 0xA0, 0xA1, 0xA2, 0xA3, 0xC6, 0xC7] ∧
      ¬ (0xB0 ≤ b.toNat ∧ b.toNat ≤ 0xBF)) ∧
    (legacyByte 0x48 = none ∧ ¬ (0xB0 ≤ (0x48 : Byte).toNat)) ∧
    (∀ b ∈ ([0x1F, 0x24] : List Byte), ¬ (0x20 ≤ b.toNat ∧ b.toNat ≤ 0x23)) ∧
    (takeModRm .b64 [0xF8] = .ok (7, .reg 0, []) ∧ (7 : BitVec 3) ≠ 0) ∧
    ((⟨true, false, false, false⟩ : Rex).byte = 0x48 ∧ legacyByte 0x90 = none ∧ rexByte 0x90 = none ∧
      takeModRm (addressSize .c64 .empty) [0xC8] = .ok (1, .reg 0, []) ∧ (1 : BitVec 3) ≠ 0) :=
  ⟨by decide, by decide, by decide, ⟨rfl, by decide⟩, by decide, by decide, by decide, rfl, by decide⟩
/-- R119, R130: 48 90, 48 0F 24, 48 C7 with reg = 1. -/
theorem test_decode_rex_refusals :
    decode .c64 [0x48, 0x90] = .error .notInSpec ∧ decode .c64 [0x48, 0x0F, 0x24] = .error .notInSpec ∧
    decode .c64 [0x48, 0xC7, 0xC8] = .error .notInSpec := ⟨rfl, rfl, rfl⟩
theorem witness_RefusedPrefixes :
    (Prefixes.mk true (some .es) true true none).seg.isSome = true ∧ (legacyByte 0x66).isSome = true ∧ (rexByte 0x48).isSome = true := by
  decide
/-- CR0.PG set without CR0.PE. -/
def illFormed : State := { s16 [0x88, 0xC3] with cr0 := 0x80000010 }
/-- A breakpoint armed where the parameter says to refuse. -/
def armedRefuse : State :=
  { s16 [0x88, 0xC3] with dr7 := 0x401, cfg := { Params.default with breakpoints := .refuse } }
/-- S64 at the last two bytes of the low half of the linear addresses. -/
def s64top : State :=
  { s64 3 [] with
    pc := 0x7FFFFFFFFFFE
    mem := Memory.writeAll [] (cells 0x1FFE [0x88, 0xC3])
    cfg := { Params.default with translations := [⟨0x7FFFFFFFF000, 0x1000, ⟨.fetch, true⟩, .phys 0x1000⟩] } }
/-- An ill-formed state; an armed breakpoint; NOP, which is none of the rows; a prefix F2; an instruction that runs; one whose next `pc` is not
canonical. -/
theorem witness_StepRunsDecoded :
    ¬ LaunchConditions illFormed ∧
    (LaunchConditions armedRefuse ∧ armedRefuse.cfg.breakpoints = .refuse ∧ armedRefuse.dr7.extractLsb' 0 8 ≠ 0) ∧
    (LaunchConditions (s64 3 [0x90]) ∧ (s64 3 [0x90]).cfg.breakpoints = .inert ∧
      decode (s64 3 [0x90]).codeSize ((s64 3 [0x90]).fetchBytes 15 0).1 = .error .notInSpec) ∧
    (LaunchConditions (s64 3 [0xF2]) ∧ (s64 3 [0xF2]).cfg.breakpoints = .inert ∧
      decode (s64 3 [0xF2]).codeSize ((s64 3 [0xF2]).fetchBytes 15 0).1 = .error .prefixNotModelled) ∧
    (LaunchConditions (s64 3 [0x88, 0xC3]) ∧ (s64 3 [0x88, 0xC3]).cfg.breakpoints = .inert ∧
      (∃ rest, decode (s64 3 [0x88, 0xC3]).codeSize ((s64 3 [0x88, 0xC3]).fetchBytes 15 0).1 =
        .ok (.movRm8R8 .empty (.reg 3) 0, rest)) ∧
      (s64 3 [0x88, 0xC3]).canonical ((s64 3 [0x88, 0xC3]).pc + BitVec.ofNat 64 2) = true) ∧
    (LaunchConditions s64top ∧ decode s64top.codeSize (s64top.fetchBytes 15 0).1 = .ok (.movRm8R8 .empty (.reg 3) 0, []) ∧
      s64top.mode = .long64 ∧ s64top.canonical (s64top.pc + BitVec.ofNat 64 2) = false) :=
  ⟨by rw [← launchOk_iff]; decide, ⟨launchOk_iff.1 (by decide), by decide, by decide⟩,
    ⟨launchOk_iff.1 (by decide), by decide, rfl⟩, ⟨launchOk_iff.1 (by decide), by decide, rfl⟩,
    ⟨launchOk_iff.1 (by decide), by decide, ⟨_, rfl⟩, by decide⟩, launchOk_iff.1 (by decide), rfl, by decide, by decide⟩
/-- The refusals of those five states. -/
theorem test_step_refusals :
    step illFormed = .refused (.notInSpec .illFormedLaunch) ∧ step armedRefuse = .refused (.notInSpec .armedBreakpoints) ∧
    step (s64 3 [0x90]) = .refused (.notInSpec .encoding) ∧ step (s64 3 [0xF2]) = .refused .prefixNotModelled ∧
    step s64top = .refused (.notInSpec .pcWrap) := ⟨rfl, rfl, rfl, rfl, rfl⟩
theorem witness_StepRunsEncoded :
    (s64 3 [0x88, 0xC3]).breakpointsRefuse = false ∧
    (Instr.movRm8R8 .empty (.reg 3) 0).wellFormed (s64 3 [0x88, 0xC3]).codeSize = true ∧
    encode (.movRm8R8 .empty (.reg 3) 0) = [0x88, 0xC3] ∧
    (s64 3 [0x88, 0xC3]).fetchByte 0 = .ok 0x88 ∧ (s64 3 [0x88, 0xC3]).fetchByte 1 = .ok 0xC3 ∧
    (s64top.fetchByte 0 = .ok 0x88 ∧ s64top.fetchByte 1 = .ok 0xC3) := ⟨by decide, by decide, rfl, rfl, rfl, rfl, rfl⟩
/-- S16 with `pc` at FFFF: the second byte is past the offset space. -/
def s16top : State := { s16 [] with pc := 0xFFFF, mem := Memory.writeAll [] (cells 0xFFFF [0x88]) }
/-- 15 bytes that lack the last byte of an immediate. -/
def long15 : List Byte := [0xF0, 0x64, 0x66, 0x67, 0x48, 0xC7, 0x84, 0x24, 0, 0, 0, 0, 1, 2, 3]
theorem witness_StepFetchStops :
    (LaunchConditions s16top ∧ s16top.fetchByte 0 = .ok 0x88 ∧ decode s16top.codeSize [0x88] = .error .truncated ∧
      s16top.fetchByte 1 = .error (.refuse (.notInSpec .pcWrap))) ∧
    (LaunchConditions (s64 3 long15) ∧ (List.range 15).map (s64 3 long15).fetchByte = long15.map .ok ∧
      decode (s64 3 long15).codeSize long15 = .error .truncated) :=
  ⟨⟨launchOk_iff.1 (by decide), rfl, rfl, rfl⟩, launchOk_iff.1 (by decide), rfl, rfl⟩
/-- S16 with a CS limit of 7BFF. -/
def s16limit : State :=
  { s16 [] with cs := { sel := 0, hidden := { null := false, d := { (Hidden.reset 0).d with limit := 0x7BFF } } } }
/-- S64 with `pc` in a page whose fetch faults, and in one without ordinary memory. -/
def s64fetch (a : Translation) : State :=
  { s64 3 [] with cfg := { Params.default with translations := [⟨0x1000, 0x1000, ⟨.fetch, true⟩, a⟩] } }
/-- Past the top of the offset space and at it; not canonical; past the CS limit; a page fault; a byte that is read, and one that is not
backed; a step that stops at its first byte. -/
theorem witness_FetchByteRule :
    (0xFFFF < s16top.pc.toNat + 1 ∧ s16top.pc.toNat + 0 ≤ 0xFFFF ∧ s16top.codeSize = .c16 ∧ InsideLimit s16top.cs.hidden.d 0xFFFF 1) ∧
    (s64top.mode = .long64 ∧ s64top.canonical (s64top.pc + BitVec.ofNat 64 2) = false ∧
      s64top.canonical (s64top.pc + BitVec.ofNat 64 1) = true) ∧
    (s16limit.mode ≠ .long64 ∧ ¬ InsideLimit s16limit.cs.hidden.d 0x7C00 1) ∧
    ((s64fetch (.pageFault 0x15)).translate 0x1000 ⟨.fetch, true⟩ = .pageFault 0x15 ∧ (s64fetch (.pageFault 0x15)).canonical 0x1000 = true) ∧
    (s64top.translate 0x7FFFFFFFFFFF ⟨.fetch, true⟩ = .phys 0x1FFF ∧ s64top.backed 0x1FFF = true) ∧
    ((s64fetch (.phys 0x20000)).translate 0x1000 ⟨.fetch, true⟩ = .phys 0x20000 ∧ (s64fetch (.phys 0x20000)).backed 0x20000 = false) ∧
    (LaunchConditions s16limit ∧ s16limit.breakpointsRefuse = false ∧ s16limit.fetchByte 0 = .error (.exc (.gp 0))) := by
  refine ⟨⟨by decide, by decide, by decide, ?_⟩, by decide, ⟨by decide, ?_⟩, by decide, by decide, by decide,
    launchOk_iff.1 (by decide), by decide, rfl⟩
  · simp [InsideLimit, s16top, s16, SegmentRegister.reset, Hidden.reset]
  · simp [InsideLimit, s16limit, s16, Hidden.reset]
theorem witness_StepKeepsLaunchWf : LaunchWf (s16 [0xB0, 1]) ∧ ∃ t, step (s16 [0xB0, 1]) = .next t :=
  ⟨⟨launchOk_iff.1 (by decide), ⟨by decide, by decide, by decide⟩, by decide, by decide, by decide⟩, ⟨_, rfl⟩⟩
/-- NextPcRule and FixedStateKept, in each code size. -/
theorem witness_NextPcRule_FixedStateKept :
    (∃ t, exec (.movRm8R8 .empty (.reg 3) 0) (s64 3 []) = .next t) ∧ (∃ t, exec loadSs (s32 0 0x10 []) = .next t) ∧
    (∃ t, exec (.movCrR32 .empty 3 2 0) (s16 []) = .next t) := ⟨⟨_, rfl⟩, ⟨_, rfl⟩, ⟨_, rfl⟩⟩
/-- Faults with a code outside real-address mode, without one in it, and #AC. -/
theorem witness_FaultRecord :
    exec loadSs (s32 0 0 []) = .fault ((s32 0 0 []).raise (.gp 0)) ∧
    exec load32 (withX 3 0xFFFF (s16 [])) = .fault (.gp none (withX 3 0xFFFF (s16 []))) ∧
    exec (.movR32Rm32 .empty 0 (.mem (.base 6 (.d8 1)))) { s64 3 [] with flags := 0x40002 } =
      .fault (State.raise { s64 3 [] with flags := 0x40002 } (.ac 0)) := ⟨rfl, rfl, rfl⟩
theorem witness_OnlyUnbackedRefused : exec load32 (withX 3 0x10000 (s32 0 0 [])) = .refused .unbackedMemory := by rfl
theorem witness_SsShadowRule :
    (loadedSreg store8 ≠ some 2 ∧ ∃ t, exec store8 (s32 0 0 []) = .next t) ∧
    (loadedSreg loadSs = some 2 ∧ (s32 0 0x10 []).afterMovSs = false ∧ (s32 0 0x10 []).ssShadow = false ∧
      ∃ t, exec loadSs (s32 0 0x10 []) = .next t) ∧
    (∃ t, exec loadSs { s32 0 0x10 [] with ssShadow := true } = .next t) ∧
    (∃ t, exec loadSs { s32 0 0x10 [] with afterMovSs := true } = .next t) :=
  ⟨⟨by decide, _, rfl⟩, ⟨rfl, rfl, rfl, _, rfl⟩, ⟨_, rfl⟩, _, rfl⟩
theorem witness_PrivilegedNeedsCpl0 : (s32 3 0 []).privilege ≠ 0 ∧ ∃ t, exec store8 (s32 3 0 []) = .next t := ⟨by decide, _, rfl⟩
/-- LOCK on a data move, and on MOV CR in virtual-8086 mode and outside it. -/
theorem witness_LockIsUd :
    (Instr.movRm8R8 { Prefixes.empty with lock := true } (.reg 0) 0).prefixes.lock = true ∧
    (Instr.movR32Cr { Prefixes.empty with lock := true } 3 0 0).prefixes.lock = true ∧
    State.mode { s32 3 0 [] with flags := 0x20002 } = .v86 ∧ (s32 0 0 []).mode = .prot := by decide
theorem witness_FlagsRule :
    (isCrDr store8 = false ∧ ∃ t, exec store8 (s32 0 0 []) = .next t) ∧
    (isCrDr (.movR32Cr .empty 3 0 0) = true ∧ ∃ t, exec (.movR32Cr .empty 3 0 0) (s32 0 0 []) = .next t) :=
  ⟨⟨rfl, _, rfl⟩, rfl, _, rfl⟩
/-- A store, and a load. -/
theorem witness_MemoryFrame :
    ((s32 0 0 []).dataAccess store8 = some ⟨.ds, 0x2000, 1, .write⟩ ∧ (s32 0 0 []).resolve .ds 0x2000 1 .write = .ok [0x2000] ∧
      ∃ t, exec store8 (s32 0 0 []) = .next t) ∧
    ((s32 0 0 []).dataAccess load32 = some ⟨.ds, 0x2000, 4, .read⟩ ∧ loadedSreg load32 = none ∧
      ∃ t, exec load32 (s32 0 0 []) = .next t) := ⟨⟨rfl, rfl, _, rfl⟩, rfl, rfl, _, rfl⟩
theorem witness_ByteOrder :
    [8, 9, 10, 11, 12, 13, 14, 15].length ≤ 8 ∧ [8, 9, 10, 11, 12, 13, 14, 15].Nodup ∧ Memory.wf (s32 0 0 []).mem = true := by decide
/-- An access of 4 bytes at [EBX]. -/
def read4 : DataAccess := ⟨.ds, 0x2000, 4, .read⟩
/-- The segment checks of 20_memory.md R67 allow it in S32. -/
theorem read4_allowed : (s32 0 0 []).segmentAllows read4 :=
  ⟨by decide, fun _ => ⟨(by decide : 0x2000 + 4 - 1 ≤ 0xFFFFFFFF), fun _ => ⟨by simp only [State.throughNull]; decide, rfl⟩⟩⟩
/-- The translation clauses of AccessCompletes: paging off, real-address mode, and paging on without a known answer. -/
theorem witness_AccessCompletes_translation :
    cr0PG (s32 0 0 []).cr0 = false ∧ (s16 []).mode = .real ∧
    cr0PG (State.cr0 { s64 0 [] with cfg := .default }) = true ∧ State.mode { s64 0 [] with cfg := .default } ≠ .real := by decide
theorem witness_AccessCompletes :
    (s32 0 0 []).segmentAllows read4 ∧ (s32 0 0 []).alignmentAllows read4 ∧
    (∀ k, k < 4 → (s32 0 0 []).translate ((s32 0 0 []).byteAddress read4 k) ⟨.read, false⟩ = .phys (BitVec.ofNat 64 (0x2000 + k))) ∧
    (∀ k, k < 4 → (s32 0 0 []).backed (0x2000 + k) = true) := ⟨read4_allowed, fun _ => by decide, by decide, by decide⟩
/-- S32 with DS as given. -/
def s32ds (h : Hidden) : State := { s32 0 0 [] with ds := { sel := 0x10, hidden := h } }
/-- A NULL segment, SS among them; a read-only one under a store; the last byte past the limit; an expand-down segment at its limit. -/
theorem witness_SegmentCheckFaults :
    reachesAccess load32 ∧ (s32 0 0 []).inProtected ∧ (s32 0 0 []).mode ≠ .long64 ∧
    (s32 0 0 []).dataAccess load32 = some read4 ∧ (s32 0 0 []).dataAccess store8 = some ⟨.ds, 0x2000, 1, .write⟩ ∧
    (s32ds { (Hidden.reset 0) with null := true }).throughNull read4 ∧ compatNullSs.throughNull ⟨.ss, 0x7FF0, 4, .write⟩ ∧
    ¬ (s32ds { null := false, d := { (Hidden.reset 0).d with kind := .data false false } }).kindAllows ⟨.ds, 0x2000, 1, .write⟩ ∧
    ¬ InsideLimit { (Hidden.reset 0).d with limit := 0x2002 } 0x2000 4 ∧
    ¬ InsideLimit { (Hidden.reset 0).d with kind := .data true true, limit := 0x2000 } 0x2000 4 := by
  refine ⟨⟨rfl, rfl⟩, .inl (by decide), by decide, rfl, rfl, rfl, rfl, ?_, ?_, ?_⟩
  · intro h
    have h' : segWritable (.data false false) = true := h
    revert h'
    decide
  · simp [InsideLimit, Hidden.reset]
  · simp [InsideLimit, Hidden.reset]
/-- The first byte, and the second byte alone. -/
theorem witness_NonCanonicalFaults :
    reachesAccess load32 ∧ (s64 3 []).mode = .long64 ∧
    (s64 3 []).dataAccess load32 = some ⟨.ds, 0xAAAAAAAAAAAAAAAA, 4, .read⟩ ∧ (s64 3 []).canonical (0 + 0xAAAAAAAAAAAAAAAA + 0) = false ∧
    (s64 3 []).canonical (0 + 0x7FFFFFFFFFFF + 0) = true ∧ (s64 3 []).canonical (0 + 0x7FFFFFFFFFFF + BitVec.ofNat 64 1) = false :=
  ⟨⟨rfl, rfl⟩, by decide, rfl, by decide, by decide, by decide⟩
/-- S64 at CPL 3 with EFLAGS.AC set. -/
def s64ac : State := { s64 3 [] with flags := 0x40002 }
theorem witness_AlignmentFaults :
    s64ac.dataAccess (.movR32Rm32 .empty 0 (.mem (.base 6 (.d8 1)))) = some ⟨.ds, 0x2001, 4, .read⟩ ∧
    s64ac.segmentAllows ⟨.ds, 0x2001, 4, .read⟩ ∧ s64ac.alignmentCounts ∧ (s64ac.byteAddress ⟨.ds, 0x2001, 4, .read⟩ 0).toNat % 4 ≠ 0 :=
  ⟨rfl, ⟨fun _ => by decide, fun h => absurd (by decide) h⟩, ⟨by decide, by decide, .inr ⟨by decide, rfl⟩⟩, by decide⟩
/-- A page fault at the fourth byte, and an address that is not backed. -/
theorem witness_TranslationStops :
    ((s64fault []).segmentAllows ⟨.ds, 0x2FFD, 4, .read⟩ ∧ (s64fault []).alignmentAllows ⟨.ds, 0x2FFD, 4, .read⟩ ∧
      (∀ j, j < 3 → (s64fault []).translate ((s64fault []).byteAddress ⟨.ds, 0x2FFD, 4, .read⟩ j) ⟨.read, true⟩ =
        .phys (BitVec.ofNat 64 (0x2FFD + j))) ∧
      (s64fault []).translate ((s64fault []).byteAddress ⟨.ds, 0x2FFD, 4, .read⟩ 3) ⟨.read, true⟩ = .pageFault 7) ∧
    ((s32 0 0 []).translate ((s32 0 0 []).byteAddress ⟨.ds, 0x10000, 4, .read⟩ 0) ⟨.read, false⟩ = .phys 0x10000 ∧
      (s32 0 0 []).backed 0x10000 = false) := by
  refine ⟨⟨⟨fun _ => by decide, fun h => absurd (by decide) h⟩, fun h => ?_, by decide, by decide⟩, by decide, by decide⟩
  exact absurd h.2.1 (by decide)
theorem witness_EffectiveAddress32 : addressSize (s32 0 0 []).codeSize .empty = .b32 ∧ addressSize (s64 0 []).codeSize p67 = .b32 := by
  decide
theorem witness_EffectiveAddress64 : addressSize (s64 0 []).codeSize .empty = .b64 := by decide
theorem witness_OperandSegment :
    Prefixes.empty.seg = none ∧ ({ Prefixes.empty with seg := some .fs } : Prefixes).seg = some .fs ∧ (s32 0 0 []).mode ≠ .long64 ∧
    (s64 0 []).mode = .long64 ∧ SegReg.es ≠ .fs ∧ SegReg.es ≠ .gs := by decide
/-- The destinations of MovRmReg and of both clauses of MovRmImm at [EBX] and [RSI]. -/
theorem witness_MovRmReg_MovRmImm :
    RmReady (s32 0 0 []) store8 .empty .b8 (.mem (.base 3 .d0)) ∧
    RmReady (s32 0 0 []) (.movRm32Imm32 .empty (.mem (.base 3 .d0)) 5) .empty .b32 (.mem (.base 3 .d0)) ∧
    RmReady (s64 3 []) (.movRm64Imm32 (rexOf true false false false) (.mem (.base 6 .d0)) 5) (rexOf true false false false) .b64
      (.mem (.base 6 .d0)) := ⟨⟨_, rfl⟩, ⟨_, rfl⟩, ⟨_, rfl⟩⟩
theorem witness_MovRegRm : RmValue (s32 0 0 []) load32 .empty .b32 0x03020010 (.mem (.base 3 .d0)) := ⟨_, rfl, by decide⟩
theorem witness_MovAccMoffs_MovMoffsAcc :
    (∃ pas, (s32 0 0 []).resolve ((s32 0 0 []).moffsOperand .empty (.o32 0x2000)).1 ((s32 0 0 []).moffsOperand .empty (.o32 0x2000)).2
      4 .read = .ok pas) ∧
    (∃ pas, (s32 0 0 []).resolve ((s32 0 0 []).moffsOperand .empty (.o32 0x2000)).1 ((s32 0 0 []).moffsOperand .empty (.o32 0x2000)).2
      4 .write = .ok pas) := ⟨⟨_, rfl⟩, ⟨_, rfl⟩⟩
theorem witness_MovRegImm : Prefixes.empty.lock = false := by decide
theorem witness_MovRegSreg : segOfCode 0 = some .es ∧ segOfCode 5 = some .gs := by decide
theorem witness_MovMemSreg :
    ∃ pas, (s32 0 0 []).resolve ((s32 0 0 []).memOperand (.movRm32Sreg .empty (.mem (.base 3 .d0)) 3) .empty (.base 3 .d0)).1
      ((s32 0 0 []).memOperand (.movRm32Sreg .empty (.mem (.base 3 .d0)) 3) .empty (.base 3 .d0)).2 2 .write = .ok pas := ⟨_, rfl⟩
theorem witness_SregUnusable :
    sregUsable (.movSregRm16 .empty 1 (.reg 0)) = false ∧ sregUsable (.movRm16Sreg .empty (.reg 0) 6) = false ∧
    sregUsable (.movRm64Sreg .empty (.reg 0) 7) = false := by decide
theorem witness_MovSregReal :
    (s16 []).mode = .real ∧ State.mode { s32 3 0 [] with flags := 0x20002 } = .v86 ∧ segOfCode 3 = some .ds ∧
    RmValue (s16 []) (.movSregRm16 .empty 3 (.reg 0)) .empty .b16 0 (.reg 0) := ⟨by decide, by decide, by decide, rfl⟩
/-- DS with a NULL selector; SS with one in 64-bit mode at CPL 0, and where it may not. -/
theorem witness_MovSregNull :
    ((s32 3 3 []).mode = .prot ∧ RmValue (s32 3 3 []) (.movSregRm16 .empty 3 (.reg 0)) .empty .b16 3 (.reg 0)) ∧
    ((s64 0 []).mode = .long64 ∧ (s64 0 []).cpl ≠ 3 ∧ (0 : Quad).setWidth 2 = (s64 0 []).cpl ∧
      RmValue (s64 0 []) (.movSregRm16 .empty 2 (.reg 2)) .empty .b16 0 (.reg 2)) ∧
    ((s64 3 []).cpl = 3 ∧ (1 : Quad).setWidth 2 ≠ (s64 0 []).cpl) :=
  ⟨⟨by decide, rfl⟩, ⟨by decide, by decide, by decide, rfl⟩, by decide⟩
/-- S64 with a GDT of 0x48 bytes, whose entry 2 is writable data with the accessed bit clear. -/
def s64gdt (base : Quad) (known : List KnownTranslation) : State :=
  { s64 0 [] with
    gdtr := { base := base, limit := 0x47 }
    mem := Memory.writeAll [] (cells 0x4010 (entryT 0x92))
    cfg := { Params.default with translations := known } }
/-- That state with the table readable at 0x4000, and an answer for the write of the accessed bit. -/
def s64accessed (a : Translation) : State := s64gdt 0x4000 [⟨0x4000, 0x100, ⟨.read, false⟩, .phys 0x4000⟩, ⟨0x4000, 0x100, ⟨.write, false⟩, a⟩]
/-- Each answer of `FetchDescriptor` in MovSsDescriptor and MovDataDescriptor: outside the limits, not canonical, a page fault, unbacked; and
a descriptor that passes whose accessed bit cannot be written. -/
theorem witness_DescriptorStops :
    (s32 0 0x48 []).fetchDescriptor 0x48 = .outsideLimits ∧ (s64gdt 0x8000000000000000 []).fetchDescriptor 0x10 = .noncanonical ∧
    (s64gdt 0x4000 [⟨0x4000, 0x100, ⟨.read, false⟩, .pageFault 9⟩]).fetchDescriptor 0x10 = .pageFault 9 0x4010 ∧
    (s64gdt 0x4000 [⟨0x4000, 0x100, ⟨.read, false⟩, .phys 0x20000⟩]).fetchDescriptor 0x10 = .unbacked ∧
    (∃ d, (s64accessed (.pageFault 3)).fetchDescriptor 0x10 = .desc d (.pageFault 3 0x4015) ∧ d.kind = .data true false ∧ d.dpl = 0 ∧
      d.present = true) ∧
    (∃ d, (s64accessed (.phys 0x20000)).fetchDescriptor 0x10 = .desc d .unbacked ∧ d.kind = .data true false ∧ d.dpl = 0 ∧
      d.present = true) :=
  ⟨rfl, rfl, rfl, rfl, ⟨_, rfl, rfl, rfl, rfl⟩, _, rfl, rfl, rfl, rfl⟩
/-- The remaining cases of MovSsDescriptor at CPL 0: DPL 3, not present, loaded with the accessed bit set. -/
theorem witness_MovSsDescriptor :
    (∃ d acc, (s32 0 0x18 []).fetchDescriptor 0x18 = .desc d acc ∧ d.dpl ≠ (s32 0 0x18 []).cpl) ∧
    (∃ d acc, (s32 0 0x28 []).fetchDescriptor 0x28 = .desc d acc ∧ segWritable d.kind = true ∧ d.dpl = 0 ∧ d.present = false) ∧
    (∃ d, (s32 0 0x10 []).fetchDescriptor 0x10 = .desc d (.store [(0x4015, 0x93)]) ∧ segWritable d.kind = true ∧ d.dpl = 0 ∧
      d.present = true) ∧
    RmValue (s32 0 0x10 []) loadSs .empty .b16 0x10 (.reg 0) :=
  ⟨⟨_, _, rfl, by decide⟩, ⟨_, _, rfl, by decide, by decide, by decide⟩, ⟨_, rfl, by decide, by decide, by decide⟩, rfl⟩
/-- The remaining cases of MovDataDescriptor: each kind that is refused, not present, loaded. -/
theorem witness_MovDataDescriptor :
    (∃ d acc, (s32 0 0x30 []).fetchDescriptor 0x30 = .desc d acc ∧ d.kind = .code false false) ∧
    (∃ d acc, (s32 0 0x40 []).fetchDescriptor 0x40 = .desc d acc ∧ d.kind = .system) ∧
    (∃ d acc, (s32 3 0x10 []).fetchDescriptor 0x10 = .desc d acc ∧ d.kind = .data true false ∧ d.dpl.toNat < (s32 3 0x10 []).cpl.toNat) ∧
    (∃ d acc, (s32 0 0x28 []).fetchDescriptor 0x28 = .desc d acc ∧ d.kind = .data true false ∧ d.dpl = 0 ∧ d.present = false) ∧
    (∃ d, (s32 3 0x3B []).fetchDescriptor 0x3B = .desc d (.store []) ∧ d.kind = .code true true ∧ d.present = true) :=
  ⟨⟨_, _, rfl, rfl⟩, ⟨_, _, rfl, rfl⟩, ⟨_, _, rfl, rfl, by decide⟩, ⟨_, _, rfl, rfl, by decide, by decide⟩, ⟨_, rfl, rfl, by decide⟩⟩
/-- That state where the last byte of entry 2 alone faults. -/
def s64gdtFault : State := s64gdt 0x4000 [⟨0x4000, 0x17, ⟨.read, false⟩, .phys 0x4000⟩, ⟨0x4017, 1, ⟨.read, false⟩, .pageFault 9⟩]
/-- The state in compatibility mode, with the accessed bit writable. -/
def compatGdt : State := { s64accessed (.phys 0x4000) with cs := flat 8 (.code true false) false }
/-- Each clause: an LDT selector while LDTR holds NULL, an entry past the limit and the last one inside; a table that is not canonical; a
fault at the last byte; an unbacked table; entry 2 of table T, whose accessed bit is clear, read in protected mode and in compatibility and
64-bit mode, where its update is a cell, a page fault, and unbacked; an entry with the bit set. -/
theorem witness_TableDescriptor :
    (s32 0 0 []).cfg.descriptorSource = .table ∧ ((4 : Selector).getLsbD 2 = true ∧ (s32 0 0 []).ldtr.sel.toNat ≤ 3) ∧
    (s32 0 0 []).gdtr.limit.toNat < 8 * ((0x48 : Selector).toNat / 8) + 7 ∧
    8 * ((0x40 : Selector).toNat / 8) + 7 ≤ (s32 0 0 []).gdtr.limit.toNat ∧
    ((s64gdt 0x8000000000000000 []).mode = .long64 ∧ (s64gdt 0x8000000000000000 []).canonical (0x8000000000000000 + 0x10) = false) ∧
    (s64gdtFault.canonical 0x4010 = true ∧ s64gdtFault.canonical 0x4017 = true ∧
      (∀ j, j < 7 → s64gdtFault.translate (BitVec.ofNat 64 (0x4010 + j)) ⟨.read, false⟩ = .phys (BitVec.ofNat 64 (0x4010 + j))) ∧
      s64gdtFault.translate 0x4017 ⟨.read, false⟩ = .pageFault 9) ∧
    (s32 0 0 []).backed 0x10000 = false ∧
    ((s32 0 0 []).mode = .prot ∧ (s32 0 0 []).pagingOn = false ∧ ∀ k, k < 8 → (s32 0 0 []).backed (0x4010 + k) = true ∧
      Memory.read (s32 0 0 []).mem (0x4010 + k) = (0x00CF92000000FFFF : Quad).extractLsb' (8 * k) 8) ∧
    (compatGdt.mode = .compat ∧ compatGdt.pagingOn = true ∧ ∀ k, k < 8 →
      compatGdt.translate (BitVec.ofNat 64 (0x4010 + k)) ⟨.read, false⟩ = .phys (BitVec.ofNat 64 (0x4010 + k)) ∧
      compatGdt.backed (0x4010 + k) = true ∧
      Memory.read compatGdt.mem (0x4010 + k) = (0x00CF92000000FFFF : Quad).extractLsb' (8 * k) 8) ∧
    (0x00CF92000000FFFF : Quad).getLsbD 40 = false ∧ (0x00CF93000000FFFF : Quad).getLsbD 40 = true ∧
    compatGdt.translate 0x4015 ⟨.write, false⟩ = .phys 0x4015 ∧
    (s64accessed (.pageFault 3)).translate 0x4015 ⟨.write, false⟩ = .pageFault 3 ∧
    ((s64accessed (.phys 0x20000)).translate 0x4015 ⟨.write, false⟩ = .phys 0x20015 ∧
      (s64accessed (.phys 0x20000)).backed 0x20015 = false) := by decide
/-- What `FetchDescriptor` answers there: the address of the lowest byte that faults (entry 25), and the cell in compatibility mode. -/
theorem test_table_descriptor :
    s64gdtFault.fetchDescriptor 0x10 = .pageFault 9 0x4017 ∧
    (∃ d, compatGdt.fetchDescriptor 0x10 = .desc d (.store [(0x4015, 0x93)]) ∧ d.kind = .data true false) := ⟨rfl, _, rfl, rfl⟩
/-- Virtual-8086 mode, LOCK, CR1 and CR9, CR4 on a part without it, CPL 3. -/
theorem witness_CrAccessChecks :
    State.mode { s32 3 0 [] with flags := 0x20002 } = .v86 ∧ ({ Prefixes.empty with lock := true } : Prefixes).lock = true ∧
    (regField .empty 1).toNat ∉ [0, 2, 3, 4, 8] ∧ (regField (rexOf false true false false) 1).toNat ∉ [0, 2, 3, 4, 8] ∧
    ({ Params.default with hasCr4 := false } : Params).hasCr4 = false ∧ (s32 3 0 []).mode ≠ .v86 ∧ (s32 3 0 []).mode ≠ .real ∧
    (s32 3 0 []).cpl ≠ 0 := by decide
theorem witness_supervisor : (s32 0 0 []).supervisor ∧ (s64 0 []).supervisor ∧ (s16 []).supervisor :=
  ⟨⟨by decide, by decide⟩, ⟨by decide, by decide⟩, ⟨by decide, by decide⟩⟩
theorem witness_MovRegCr_MovCr2Cr8 :
    regField .empty 0 = CtlReg.cr0.number ∧ regField .empty 2 = CtlReg.cr2.number ∧ (s32 0 0 []).cfg.hasCr4 = true ∧
    regField (rexOf false true false false) 0 = CtlReg.cr8.number := by decide
/-- `n` is what a register value stores in CR0. -/
def storesCr0 (s : State) (n : Quad) : Prop :=
  ∀ k, k < 64 → n.getLsbD k =
    (((s.readReg false .b32 0).getLsbD k && !s.cfg.cr0Reserved.getLsbD k) || (k == 4 && s.cfg.cr0EtFixed))
/-- S32 that turns paging on with PAE set and the PDPT at CR3. -/
def s32pae (cr3 : Quad) : State := { s32 0 0x80000011 [] with cr3 := cr3, cr4 := 0x20 }
/-- An invalid combination; a value that is stored; the PDPT outside the backed memory, and inside. -/
theorem witness_MovCr0 :
    (storesCr0 (s32 0 0x80000000 []) 0x80000010 ∧ cr0PG 0x80000010 = true ∧ cr0PE 0x80000010 = false) ∧
    (storesCr0 (s32 0 0x851 []) 0x11 ∧ cr0PG 0x11 = false ∧ cr0CD 0x11 = false ∧ cr0NW 0x11 = false ∧
      ∃ u, (s32 0 0x851 []).pdptLoad ((s32 0 0x851 []).withCr0 0x11) false = .ok u) ∧
    (storesCr0 (s32pae 0x10000) 0x80000011 ∧ (s32pae 0x10000).lme = false ∧
      (s32pae 0x10000).pdptLoad ((s32pae 0x10000).withCr0 0x80000011) false = .error (.refuse .unbackedMemory)) := by
  refine ⟨⟨?_, by decide, by decide⟩, ⟨?_, by decide, by decide, by decide, _, rfl⟩, ?_, rfl, rfl⟩ <;> unfold storesCr0 <;> decide
theorem witness_MovCr3 :
    ((s64 0 []).mode = .long64 ∧ (0x8000000000123000 : Quad) &&& ((s64 0 []).cfg.cr3Reserved ||| 0x8000000000000000) ≠ 0) ∧
    ((0x123000 : Quad) &&& ((s64 0 []).cfg.cr3Reserved ||| 0x8000000000000000) = 0 ∧
      ∃ u, (s64 0 []).pdptLoad { s64 0 [] with cr3 := 0x123000 } true = .ok u) ∧
    (State.pdptLoad { s32pae 0 with cr0 := 0x80000011 } { s32pae 0x10000 with cr0 := 0x80000011 } true =
      .error (.refuse .unbackedMemory)) := ⟨by decide, ⟨by decide, _, rfl⟩, rfl⟩
/-- Each invalid value of CR4; a value that is stored; a PDPT that is not backed. -/
theorem witness_MovCr4 :
    ((0x8020 : Quad) &&& (s64 0 []).cfg.cr4Reserved ≠ 0 ∧ cr4PCIDE 0x20000 = true ∧ ((0x1005 : Quad).setWidth 12 ≠ (0 : BitVec 12)) ∧
      cr4PAE (s64 0 []).cr4 = true ∧ cr4PAE 0 = false) ∧
    ((s64 0 []).mode = .long64 ∧ (0x20020 : Quad) &&& (s64 0 []).cfg.cr4Reserved = 0 ∧ (s64 0 []).cr3.setWidth 12 = (0 : BitVec 12) ∧
      cr4PAE 0x20020 = true ∧ ∃ u, (s64 0 []).pdptLoad { s64 0 [] with cr4 := 0x20020 } false = .ok u) ∧
    (State.pdptLoad { s32pae 0x10000 with cr0 := 0x80000011, cr4 := 0 } { s32pae 0x10000 with cr0 := 0x80000011 } false =
      .error (.refuse .unbackedMemory)) := ⟨by decide, ⟨by decide, by decide, by decide, by decide, _, rfl⟩, rfl⟩
theorem witness_MovCr2Cr8_reserved :
    (0x10 : Quad) &&& (s64 0 []).cfg.cr8Reserved ≠ 0 ∧ (0xF : Quad) &&& (s64 0 []).cfg.cr8Reserved = 0 := by decide
/-- Without PAE paging; a change of other bits alone; a change of CR0.PG and one of CR4.SMEP with PAE paging in use after it; a table that is
backed, and one that is not at its last byte. -/
theorem witness_PdptLoadRule :
    (s32 0 0 []).cr0.getLsbD 31 = false ∧
    (¬ ((∃ n ∈ [29, 30, 31], (0x80000011 : Quad).getLsbD n ≠ (0x80010011 : Quad).getLsbD n) ∨
      ∃ n ∈ [4, 5, 7, 20], (0x20 : Quad).getLsbD n ≠ (0x24 : Quad).getLsbD n)) ∧
    (∃ n ∈ [29, 30, 31], (s32pae 0).cr0.getLsbD n ≠ (0x80000011 : Quad).getLsbD n) ∧
    (∃ n ∈ [4, 5, 7, 20], (0x20 : Quad).getLsbD n ≠ (0x100020 : Quad).getLsbD n) ∧
    ((0x80000011 : Quad).getLsbD 31 = true ∧ (s32pae 0).cr4.getLsbD 5 = true ∧ ((s32pae 0).cfg.arch64 && (s32pae 0).lma) = false) ∧
    (∀ k, k < 32 → (s32pae 0xFFE0).backed (0xFFE0 + k) = true) ∧ (s32pae 0x10000).backed (0x10000 + 31) = false := by decide
/-- LOCK, REX.R and CR4.DE each; CPL 3; general detect; a 1 in bit 32 of DR7. -/
theorem witness_DrAccessChecks :
    (rexOf false true false false).rexR = true ∧ drTarget true 4 = none ∧ drTarget true 5 = none ∧ drTarget false 4 = some .dr6 ∧
    drTarget false 5 = some .dr7 ∧ (s32 3 0 []).cpl ≠ 0 ∧ dr7GD 0x2400 = true ∧ dr7GD (s64 0 []).dr7 = false ∧
    (State.x (withX 0 0x100000000 (s64 0 [])) (rmField .empty 0)).extractLsb' 32 32 ≠ 0 := by decide
theorem witness_MovRegDr_MovDrReg :
    Prefixes.empty.rexR = false ∧ dr7GD (s32 0 0 []).dr7 = false ∧
    drTarget ((s32 0 0 []).cfg.hasCr4 && (s32 0 0 []).cfg.hasDe && cr4DE (s32 0 0 []).cr4) 0 = some .dr0 ∧
    ((s32 0 0 []).readReg false .b32 (rmField .empty 0)).extractLsb' 32 32 = 0 := by decide

end Sys2Proof.Tests
end

section
/-! PROOF. The canonical form of an address, the operating mode and what it selects, and how a step goes on from the fetched bytes. -/

namespace Sys2Proof.Machine

/-! ## Canonical form (20_memory.md R70) -/

/-- A word is all zeros or all ones exactly where its bits are all equal to its sign bit. -/
theorem eq_zero_or_allOnes_iff {w : Nat} (v : BitVec w) :
    (v = 0 ∨ v = BitVec.allOnes w) ↔ ∀ k, k < w → v.getLsbD k = v.msb := by
  constructor
  · rintro (rfl | rfl) k hk
    · simp
    · simp [hk, BitVec.msb_allOnes (Nat.zero_lt_of_lt hk)]
  · intro h
    cases hm : v.msb with
    | false => exact .inl (BitVec.eq_of_getLsbD_eq fun k hk => by rw [h k hk, hm]; simp)
    | true => exact .inr (BitVec.eq_of_getLsbD_eq fun k hk => by rw [h k hk, hm]; simp [hk])

/-- The model's test by an arithmetic shift asks that every bit from `LA_BITS - 1` up is the sign bit. -/
theorem canonical_iff_msb {s : State} {la : Quad} :
    s.canonical la = true ↔ ∀ k, s.cfg.laBits - 1 ≤ k → k < 64 → la.getLsbD k = la.msb := by
  rw [State.canonical, Bool.or_eq_true, beq_iff_eq, beq_iff_eq, eq_zero_or_allOnes_iff]
  simp only [BitVec.getLsbD_sshiftRight, BitVec.msb_sshiftRight]
  constructor
  · intro h k hlo hk
    have hlt : k - (s.cfg.laBits - 1) < 64 := by omega
    simpa [Nat.add_sub_cancel' hlo, hk, hlt.not_ge] using h (k - (s.cfg.laBits - 1)) hlt
  · intro h k hk
    by_cases hin : s.cfg.laBits - 1 + k < 64
    · simpa [hk.not_ge, hin] using h _ (Nat.le_add_right _ _) hin
    · simp [hk.not_ge, hin]

/-- Settles O27: the sign bit is one of the bits compared, so it may be replaced by bit `LA_BITS - 1`. -/
theorem canonicalRule : Obligations.CanonicalRule := by
  intro s la
  rw [canonical_iff_msb]
  generalize s.cfg.laBits - 1 = n
  have hmsb : la.msb = la.getLsbD 63 := BitVec.msb_eq_getLsbD_last la
  constructor
  · intro h k hlo hk
    rw [h k hlo hk, h n le_rfl (by omega)]
  · intro h k hlo hk
    rw [hmsb, h k hlo hk, h 63 (by omega) (by omega)]

/-! ## The operating mode (10_state.md R34), and what it selects -/

section
variable {s : State}

theorem mode_of_real (hpe : cr0PE s.cr0 = false) : s.mode = .real := by
  simp [State.mode, hpe]

theorem mode_of_longActive (hpe : cr0PE s.cr0 = true) (hlma : s.longActive = true) :
    s.mode = if s.cs.hidden.d.long then .long64 else .compat := by
  simp [State.mode, hpe, hlma]

theorem mode_of_legacy (hpe : cr0PE s.cr0 = true) (hlma : s.longActive = false) :
    s.mode = if flagsVM s.flags then .v86 else .prot := by
  simp [State.mode, hpe, hlma]

/-- The mode alone gives 16-bit code in real-address and virtual-8086 mode, and 64-bit code in 64-bit mode (30_encoding.md R100). -/
theorem codeSize_of_real (h : s.mode = .real) : s.codeSize = .c16 := by
  simp [State.codeSize, h]

@[inherit_doc codeSize_of_real] theorem codeSize_of_v86 (h : s.mode = .v86) : s.codeSize = .c16 := by
  simp [State.codeSize, h]

@[inherit_doc codeSize_of_real] theorem codeSize_of_long64 (h : s.mode = .long64) : s.codeSize = .c64 := by
  simp [State.codeSize, h]

/-- In protected and compatibility mode the D bit of CS selects (R100). -/
theorem codeSize_of_prot_or_compat (h : s.mode = .prot ∨ s.mode = .compat) :
    s.codeSize = if s.cs.hidden.d.big then .c32 else .c16 := by
  rcases h with h | h <;> simp [State.codeSize, h]

/-- Only 64-bit mode runs 64-bit code (R100). -/
theorem codeSize_eq_c64_iff : s.codeSize = .c64 ↔ s.mode = .long64 := by
  refine ⟨fun h => ?_, codeSize_of_long64⟩
  cases hm : s.mode with
  | long64 => rfl
  | real => simp [codeSize_of_real hm] at h
  | v86 => simp [codeSize_of_v86 hm] at h
  | prot => rw [codeSize_of_prot_or_compat (.inl hm)] at h; split at h <;> cases h
  | compat => rw [codeSize_of_prot_or_compat (.inr hm)] at h; split at h <;> cases h

theorem privilege_of_real (h : s.mode = .real) : s.privilege = 0 := by
  simp [State.privilege, h]

theorem privilege_of_v86 (h : s.mode = .v86) : s.privilege = 3 := by
  simp [State.privilege, h]

/-- Outside real-address and virtual-8086 mode the privilege level is CPL as held (10_state.md R33). -/
theorem privilege_eq_cpl (hr : s.mode ≠ .real) (hv : s.mode ≠ .v86) : s.privilege = s.cpl := by
  cases hm : s.mode <;> simp_all [State.privilege]

end

/-- Settles O4: the mode of each clause first, then the privilege level and the code size that this mode selects. -/
theorem modeRule : Obligations.ModeRule := by
  intro s
  refine ⟨fun hpe => ?real, fun hpe hlma hlong => ?long64, fun hpe hlma hlong => ?compat, fun hpe hlma hvm => ?v86,
    fun hpe hlma hvm => ?prot, fun harch => ?noIntel64⟩
  case real =>
    have hm : s.mode = .real := mode_of_real hpe
    exact ⟨hm, privilege_of_real hm, codeSize_of_real hm⟩
  case long64 =>
    have hm : s.mode = .long64 := (mode_of_longActive hpe hlma).trans (if_pos hlong)
    exact ⟨hm, privilege_eq_cpl (by simp [hm]) (by simp [hm]), codeSize_of_long64 hm⟩
  case compat =>
    have hm : s.mode = .compat := (mode_of_longActive hpe hlma).trans (if_neg (Bool.not_eq_true _ ▸ hlong))
    exact ⟨hm, privilege_eq_cpl (by simp [hm]) (by simp [hm]), codeSize_of_prot_or_compat (.inr hm)⟩
  case v86 =>
    have hm : s.mode = .v86 := (mode_of_legacy hpe hlma).trans (if_pos hvm)
    exact ⟨hm, privilege_of_v86 hm, codeSize_of_v86 hm⟩
  case prot =>
    have hm : s.mode = .prot := (mode_of_legacy hpe hlma).trans (if_neg (Bool.not_eq_true _ ▸ hvm))
    exact ⟨hm, privilege_eq_cpl (by simp [hm]) (by simp [hm]), codeSize_of_prot_or_compat (.inl hm)⟩
  case noIntel64 =>
    have hia : s.ia32e = false := not_ia32e_of_arch harch
    refine ⟨hia, fun hc => ?_⟩
    have hm : s.mode = .long64 := codeSize_eq_c64_iff.1 hc
    simp [ia32e_iff.2 (.inl hm)] at hia

/-! ## From the fetched bytes to the step (00_scope.md R19) -/

section
variable {s : State}

/-- A step is refused for an armed breakpoint by the parameter and the enable bits of DR7 (43_mov_dr.md R263). -/
theorem breakpointsRefuse_iff : s.breakpointsRefuse = true ↔ s.cfg.breakpoints = .refuse ∧ s.dr7.extractLsb' 0 8 ≠ 0 := by
  simp [State.breakpointsRefuse, State.armed]

theorem breakpointsRefuse_eq_false_iff :
    s.breakpointsRefuse = false ↔ s.cfg.breakpoints = .inert ∨ s.dr7.extractLsb' 0 8 = 0 := by
  rw [← Bool.not_eq_true, breakpointsRefuse_iff]
  cases s.cfg.breakpoints <;> simp

/-- An instruction is fetched where the decoder answers one, whatever bytes are left over (30_encoding.md R91). -/
theorem fetchInstr_of_decode_ok {i : Instr} {rest : List Byte} (h : decode s.codeSize (s.fetchBytes 15 0).1 = .ok (i, rest)) :
    s.fetchInstr = .ok i := by
  simp [State.fetchInstr, h]

/-- Bytes of no row are refused by name (30_encoding.md R119). -/
theorem fetchInstr_of_notInSpec (h : decode s.codeSize (s.fetchBytes 15 0).1 = .error .notInSpec) :
    s.fetchInstr = .error (.refuse (.notInSpec .encoding)) := by
  simp [State.fetchInstr, h]

/-- So are prefixes that the spec does not cover (30_encoding.md R132). -/
theorem fetchInstr_of_prefixNotModelled (h : decode s.codeSize (s.fetchBytes 15 0).1 = .error .prefixNotModelled) :
    s.fetchInstr = .error (.refuse .prefixNotModelled) := by
  simp [State.fetchInstr, h]

/-- The next `pc` passes outside 64-bit mode, and in 64-bit mode where the sum that is `pc` there is canonical (10_state.md R27). -/
theorem nextPcOk_iff {i : Instr} :
    s.nextPcOk i = true ↔ s.mode ≠ .long64 ∨ s.canonical (s.pc + BitVec.ofNat 64 i.length) = true := by
  by_cases hm : s.mode = .long64
  · simp [State.nextPcOk, State.nextPc, hm, codeSize_of_long64 hm]
  · simp [State.nextPcOk, hm]

theorem nextPcOk_eq_false_iff {i : Instr} :
    s.nextPcOk i = false ↔ s.mode = .long64 ∧ s.canonical (s.pc + BitVec.ofNat 64 i.length) = false := by
  rw [← Bool.not_eq_true, nextPcOk_iff]
  simp

theorem step_of_breakpointsRefuse (hl : LaunchConditions s) (hb : s.breakpointsRefuse = true) :
    step s = .refused (.notInSpec .armedBreakpoints) := by
  simp [step_of_launch hl, hb]

/-- A step without an instruction stops as the fetch does. -/
theorem step_of_fetchInstr_error {e : Stop} (hl : LaunchConditions s) (hb : s.breakpointsRefuse = false)
    (hf : s.fetchInstr = .error e) : step s = s.stop e := by
  simp [step_of_launch hl, hb, hf]

/-- A step with an instruction is `exec`, unless its next `pc` is refused first (entry 14). -/
theorem step_of_fetchInstr_ok {i : Instr} (hl : LaunchConditions s) (hb : s.breakpointsRefuse = false)
    (hf : s.fetchInstr = .ok i) : step s = if s.nextPcOk i then exec i s else .refused (.notInSpec .pcWrap) := by
  simp [step_of_launch hl, hb, hf]

end

/-- Settles O8, through the answer of the fetch in each case. -/
theorem stepRunsDecoded : Obligations.StepRunsDecoded := by
  intro s
  refine ⟨step_of_not_launch, fun hl hr ha => step_of_breakpointsRefuse hl (breakpointsRefuse_iff.2 ⟨hr, ha⟩),
    fun hl hb hd => ?notInSpec, fun hl hb hd => ?prefixNotModelled, fun i rest hl hb hd => ?decoded⟩
  case notInSpec =>
    exact step_of_fetchInstr_error hl (breakpointsRefuse_eq_false_iff.2 hb) (fetchInstr_of_notInSpec hd)
  case prefixNotModelled =>
    exact step_of_fetchInstr_error hl (breakpointsRefuse_eq_false_iff.2 hb) (fetchInstr_of_prefixNotModelled hd)
  case decoded =>
    rw [step_of_fetchInstr_ok hl (breakpointsRefuse_eq_false_iff.2 hb) (fetchInstr_of_decode_ok hd)]
    refine ⟨fun hok => if_pos (nextPcOk_iff.2 hok), fun hm hc => ?_⟩
    rw [nextPcOk_eq_false_iff.2 ⟨hm, hc⟩]
    rfl

end Sys2Proof.Machine
end

section
/-! PROOF. Decoding inverts encoding, and so a step at the bytes of an instruction runs that instruction. -/

namespace Sys2Proof

/-! ## Fields and little-endian values (30_encoding.md R102, R103; 20_memory.md R63) -/

/-- A part of the decoder that answers drops out of a sequence. -/
@[simp] theorem decode_ok_bind {α β : Type} (a : α) (f : α → DecodeM β) : ((.ok a : DecodeM α) >>= f) = f a := rfl

section
variable (hi : BitVec 2) (mid lo : BitVec 3)

@[simp] theorem bits_byteOf_hi : bits (byteOf hi mid lo) 6 2 = hi :=
  (BitVec.extractLsb'_append_eq_of_le (by decide)).trans BitVec.extractLsb'_append_eq_left

@[simp] theorem bits_byteOf_mid : bits (byteOf hi mid lo) 3 3 = mid :=
  (BitVec.extractLsb'_append_eq_of_le (by decide)).trans BitVec.extractLsb'_append_eq_right

@[simp] theorem bits_byteOf_lo : bits (byteOf hi mid lo) 0 3 = lo := BitVec.extractLsb'_append_eq_right

end

@[simp] theorem bits_plusReg_opcode (op : BitVec 5) (r : BitVec 3) : bits (plusReg op r) 3 5 = op :=
  BitVec.extractLsb'_append_eq_left

@[simp] theorem bits_plusReg_reg (op : BitVec 5) (r : BitVec 3) : bits (plusReg op r) 0 3 = r :=
  BitVec.extractLsb'_append_eq_right

section
variable (rest : List Byte)

@[simp] theorem take8_cons (b : Byte) : take8 (b :: rest) = .ok (b, rest) := rfl

@[simp] theorem take16_bytes16 (v : BitVec 16) : take16 (bytes16 v ++ rest) = .ok (v, rest) := by
  simp only [bytes16, List.cons_append, List.nil_append, take16]
  rw [BitVec.extractLsb'_append_extractLsb'_eq_extractLsb' (by decide), BitVec.extractLsb'_eq_self]

@[simp] theorem take32_bytes32 (v : BitVec 32) : take32 (bytes32 v ++ rest) = .ok (v, rest) := by
  simp only [bytes32, List.cons_append, List.nil_append, take32]
  repeat rw [BitVec.extractLsb'_append_extractLsb'_eq_extractLsb' (by decide)]
  rw [BitVec.extractLsb'_eq_self]

@[simp] theorem take64_bytes64 (v : BitVec 64) : take64 (bytes64 v ++ rest) = .ok (v, rest) := by
  simp only [bytes64, List.cons_append, List.nil_append, take64]
  repeat rw [BitVec.extractLsb'_append_extractLsb'_eq_extractLsb' (by decide)]
  rw [BitVec.extractLsb'_eq_self]

/-! ## Displacements, memory forms and operands (R109 to R111, R115) -/

theorem disp16_mod_ne (d : Disp16) : d.encode.1 ≠ 3#2 := by cases d <;> simp [Disp16.encode]

theorem disp32_mod_ne (d : Disp32) : d.encode.1 ≠ 3#2 := by cases d <;> simp [Disp32.encode]

theorem disp16_mod_eq_zero_iff {d : Disp16} : d.encode.1 = 0#2 ↔ d = .d0 := by cases d <;> simp [Disp16.encode]

theorem disp32_mod_eq_zero_iff {d : Disp32} : d.encode.1 = 0#2 ↔ d = .d0 := by cases d <;> simp [Disp32.encode]

@[simp] theorem takeDisp16_encode (d : Disp16) : takeDisp16 d.encode.1 (d.encode.2 ++ rest) = .ok (d, rest) := by
  cases d <;> simp [Disp16.encode, takeDisp16]

@[simp] theorem takeDisp32_encode (d : Disp32) : takeDisp32 d.encode.1 (d.encode.2 ++ rest) = .ok (d, rest) := by
  cases d <;> simp [Disp32.encode, takeDisp32]

/-- A well-formed operand is read back, since no form has the bytes of another: no displacement form has mod = 3, and the forms without a base
register have mod = 0 with a number that `MemForm.wf` keeps from the others. -/
theorem takeModRm_encode {a : Width} {rm : Rm} (g : BitVec 3) (h : rm.wf a = true) :
    takeModRm a (rm.encode g ++ rest) = .ok (g, rm, rest) := by
  cases rm with
  | reg n => simp [Rm.encode, takeModRm]
  | mem m =>
    cases m with
    | base16 rm d =>
      have hmod : a = .b16 ∧ ¬ (d.encode.1 = 0#2 ∧ rm = 6#3) := by
        simp [Rm.wf, MemForm.wf] at h; grind [disp16_mod_eq_zero_iff]
      simp [Rm.encode, takeModRm, takeMem16, disp16_mod_ne, hmod]
    | base rm d =>
      have hmod : a ≠ .b16 ∧ rm ≠ 4#3 ∧ ¬ (d.encode.1 = 0#2 ∧ rm = 5#3) := by
        simp [Rm.wf, MemForm.wf] at h; grind [disp32_mod_eq_zero_iff]
      simp [Rm.encode, takeModRm, takeMem32, disp32_mod_ne, hmod]
    | sib sc x b d =>
      have hmod : a ≠ .b16 ∧ ¬ (d.encode.1 = 0#2 ∧ b = 5#3) := by
        simp [Rm.wf, MemForm.wf] at h; grind [disp32_mod_eq_zero_iff]
      simp [Rm.encode, takeModRm, takeMem32, disp32_mod_ne, hmod]
    | abs16 | disp | sibNoBase =>
      simp [Rm.wf, MemForm.wf] at h
      simp [Rm.encode, takeModRm, takeMem16, takeMem32, h]

theorem takeMoffs_encode {a : Width} {o : Moffs} (h : o.wf a = true) : takeMoffs a (o.encode ++ rest) = .ok (o, rest) := by
  cases o <;> simp only [Moffs.wf, beq_iff_eq] at h <;> subst h <;> simp [takeMoffs, Moffs.encode]

end

/-! ## Prefixes (R90, R93, R99) -/

section
variable {c : CodeSize} {p q : Prefixes} {b op : Byte}

/-- The bytes of the prefixes, part by part. -/
theorem prefixes_encode_eq (p : Prefixes) :
    p.encode = (if p.lock then [0xF0] else []) ++ (p.seg.toList.map segByte ++ ((if p.opsize then [0x66] else []) ++
      ((if p.addrsize then [0x67] else []) ++ p.rex.toList.map Rex.byte))) := by
  rcases p with ⟨lock, _ | g, opsize, addrsize, _ | x⟩ <;> simp [Prefixes.encode]

/-- A byte that can still be added to the legacy prefixes is taken. -/
theorem decodeFrom_legacy {l : LegacyByte} (bs : List Byte) (hb : legacyByte b = some l) (hq : addLegacy p l = some q) :
    decodeFrom c p (b :: bs) = decodeFrom c q bs := by
  simp [decodeFrom, hb, hq]

theorem legacyByte_segByte (g : SegReg) : legacyByte (segByte g) = some (.seg g) := by cases g <;> rfl

/-- LOCK, 66 or 67, there or not. -/
theorem decodeFrom_optional {present : Bool} {l : LegacyByte} (q : Prefixes) (bs : List Byte) (hb : legacyByte b = some l)
    (hq : if present then addLegacy p l = some q else q = p) :
    decodeFrom c p ((if present then [b] else []) ++ bs) = decodeFrom c q bs := by
  cases present with
  | true => exact decodeFrom_legacy bs hb hq
  | false => rw [show q = p from hq]; rfl

/-- A segment override that is there or not. -/
theorem decodeFrom_seg (seg : Option SegReg) (bs : List Byte) (h : p.seg = none) :
    decodeFrom c p (seg.toList.map segByte ++ bs) = decodeFrom c { p with seg := seg } bs := by
  cases seg with
  | some g => exact decodeFrom_legacy bs (legacyByte_segByte g) (by simp [addLegacy, h])
  | none => cases p; cases h; rfl

/-- REX, there or not, and the opcode. -/
theorem decodeFrom_rexOpcode {rex : Option Rex} (bs : List Byte) (h : p.rex = none) (hc : rex.isNone = true ∨ c = .c64)
    (hl : legacyByte op = none) (hr : rexByte op = none) :
    decodeFrom c p (rex.toList.map Rex.byte ++ op :: bs) = decodeOpcode c { p with rex := rex } op bs := by
  cases rex with
  | none => cases p; cases h; exact decodeFrom_opcode _ bs hl fun _ => hr
  | some x =>
    obtain rfl : c = .c64 := by simpa using hc
    exact (decodeFrom_rex p x _).trans (decodeAfterRex_opcode _ bs hl hr)

/-- The decoder takes the prefixes of an instruction and goes on with its opcode. -/
theorem decode_prefixes (hp : p.wf c = true) (hl : legacyByte op = none) (hr : rexByte op = none) (bs : List Byte) :
    decode c (p.encode ++ op :: bs) = decodeOpcode c p op bs := by
  have hc : p.rex.isNone = true ∨ c = .c64 := by simpa [Prefixes.wf] using hp
  rw [decode, prefixes_encode_eq]
  rcases p with ⟨lock, seg, opsize, addrsize, rex⟩
  simp only [List.append_assoc]
  rw [decodeFrom_optional ⟨lock, none, false, false, none⟩ _ (l := .lock) rfl (by cases lock <;> rfl), decodeFrom_seg _ _ rfl,
    decodeFrom_optional ⟨lock, seg, opsize, false, none⟩ _ (l := .opsize) rfl (by cases opsize <;> rfl),
    decodeFrom_optional ⟨lock, seg, opsize, addrsize, none⟩ _ (l := .addrsize) rfl (by cases addrsize <;> rfl),
    decodeFrom_rexOpcode _ rfl hc hl hr]

end

/-! ## Opcodes and operands (R116, R117, R119) -/

/-- An opcode byte with a register in its low bits is none of the prefixes. -/
theorem legacyByte_plusReg {h : BitVec 5} (hh : h = 0x16 ∨ h = 0x17) (r : BitVec 3) : legacyByte (plusReg h r) = none := by
  revert r h; decide

@[inherit_doc legacyByte_plusReg]
theorem rexByte_plusReg {h : BitVec 5} (hh : h = 0x16 ∨ h = 0x17) (r : BitVec 3) : rexByte (plusReg h r) = none := by
  revert r h; decide

theorem plusReg_ne {h : BitVec 5} (r : BitVec 3) {b : Byte} (hb : bits b 3 5 ≠ h) : plusReg h r ≠ b := by
  rintro rfl
  exact hb (bits_plusReg_opcode h r)

/-- The fields by which the decoder tells the opcodes C6, C7 and the escape 0F from the `+r` rows, and knows the second opcode bytes. -/
theorem opcode_fields :
    bits 0xC6#8 3 5 = 0x18#5 ∧ bits 0xC7#8 3 5 = 0x18#5 ∧ bits 0x0F#8 3 5 = 1#5 ∧
    bits 0x20#8 2 6 = 8#6 ∧ bits 0x21#8 2 6 = 8#6 ∧ bits 0x22#8 2 6 = 8#6 ∧ bits 0x23#8 2 6 = 8#6 := by decide

section
variable {c : CodeSize} {i : Instr}

/-- An encoding is decoded where its opcode decodes the operands after it. -/
theorem decode_of_opcode {op : Byte} {operands rest : List Byte} (hp : i.prefixes.wf c = true) (hl : legacyByte op = none)
    (hr : rexByte op = none) (henc : encode i = i.prefixes.encode ++ op :: operands)
    (hop : decodeOpcode c i.prefixes op (operands ++ rest) = .ok (i, rest)) : decode c (encode i ++ rest) = .ok (i, rest) := by
  rw [henc, List.append_assoc, List.cons_append, decode_prefixes hp hl hr, hop]

/-- What the encoder writes of a well-formed instruction is that instruction to the decoder: after the prefixes the opcode names a group of
rows, whose operands are read back, and the condition of the row (R116, R117) picks it out of the group. -/
theorem decode_encode (h : i.wellFormed c = true) (rest : List Byte) : decode c (encode i ++ rest) = .ok (i, rest) := by
  simp only [Instr.wellFormed, Bool.and_eq_true] at h
  obtain ⟨⟨hp, hrow⟩, -⟩ := h
  cases i
  all_goals simp [Instr.rowWf] at hrow
  case movRm8R8 | movRm8R8Rex | movRm16R16 | movRm32R32 | movRm64R64 | movR8Rm8 | movR8Rm8Rex | movR16Rm16 | movR32Rm32 |
      movR64Rm64 | movRm16Sreg | movRm32Sreg | movRm64Sreg | movSregRm16 | movSregRm64 =>
    refine decode_of_opcode hp (by rfl) (by rfl) rfl ?_
    simp [Instr.prefixes, decodeOpcode, modRmRow, bySize, takeModRm_encode, hrow]
  case movAlMoffs8 | movAlMoffs8RexW | movAxMoffs16 | movEaxMoffs32 | movRaxMoffs64 | movMoffs8Al | movMoffs8AlRexW | movMoffs16Ax |
      movMoffs32Eax | movMoffs64Rax =>
    refine decode_of_opcode hp (by rfl) (by rfl) rfl ?_
    simp [Instr.prefixes, decodeOpcode, moffsRow, bySize, takeMoffs_encode, hrow]
  case movR8Imm8 p r v | movR8Imm8Rex p r v =>
    refine decode_of_opcode hp (legacyByte_plusReg (.inl rfl) r) (rexByte_plusReg (.inl rfl) r) rfl ?_
    simp (disch := decide) [Instr.prefixes, decodeOpcode, plusReg_ne, hrow]
  case movR16Imm16 p r v | movR32Imm32 p r v | movR64Imm64 p r v =>
    refine decode_of_opcode hp (legacyByte_plusReg (.inr rfl) r) (rexByte_plusReg (.inr rfl) r) rfl ?_
    simp (disch := decide) [Instr.prefixes, decodeOpcode, plusReg_ne, movRegImm, hrow]
  case movRm8Imm8 | movRm8Imm8Rex | movRm16Imm16 | movRm32Imm32 | movRm64Imm32 =>
    refine decode_of_opcode hp (by rfl) (by rfl) rfl ?_
    simp [Instr.prefixes, decodeOpcode, opcode_fields, movRmImm, takeModRm0, takeModRm_encode, hrow]
  case movR32Cr | movR64Cr8 | movCrR32 | movCr8R64 | movR32Dr | movR64Dr | movDrR32 | movDrR64 =>
    refine decode_of_opcode hp (by rfl) (by rfl) rfl ?_
    simp [Instr.prefixes, decodeOpcode, opcode_fields, decodeEscape, hrow]
  case movR64Cr p mod cr r | movCrR64 p mod cr r =>
    obtain ⟨hc, hcr⟩ := hrow
    have hcr : ¬ (p.rexR = true ∧ cr = 0#3) := by simpa [imp_iff_not_or] using hcr
    refine decode_of_opcode hp (by rfl) (by rfl) rfl ?_
    simp [Instr.prefixes, decodeOpcode, opcode_fields, decodeEscape, hc, hcr]

end

end Sys2Proof

namespace Sys2Proof.Machine

/-! ## The bytes at `pc` (30_encoding.md R91, R92) -/

open Laws.LengthOfEncoding in
/-- The encoding of an instruction has the length that R92 counts: the laws per constructor, in their order. -/
theorem encode_length (i : Instr) : (encode i).length = i.length :=
  Instr.casesOn (motive := Statement) i
    movRm8R8 movRm8R8Rex movRm16R16 movRm32R32 movRm64R64 movR8Rm8 movR8Rm8Rex movR16Rm16 movR32Rm32 movR64Rm64 movRm16Sreg
    movRm32Sreg movRm64Sreg movSregRm16 movSregRm64 movAlMoffs8 movAlMoffs8RexW movAxMoffs16 movEaxMoffs32 movRaxMoffs64 movMoffs8Al
    movMoffs8AlRexW movMoffs16Ax movMoffs32Eax movMoffs64Rax movR8Imm8 movR8Imm8Rex movR16Imm16 movR32Imm32 movR64Imm64 movRm8Imm8
    movRm8Imm8Rex movRm16Imm16 movRm32Imm32 movRm64Imm32 movR32Cr movR64Cr movR64Cr8 movCrR32 movCrR64 movCr8R64 movR32Dr movR64Dr
    movDrR32 movDrR64

/-- The bytes that can be fetched begin with any bytes that stand there one by one. -/
theorem fetchBytes_eq_append {s : State} {bs : List Byte} {n k : Nat} (hn : bs.length ≤ n)
    (h : ∀ (j : Nat) (b : Byte), bs[j]? = some b → s.fetchByte (k + j) = .ok b) :
    ∃ rest, (s.fetchBytes n k).1 = bs ++ rest := by
  induction bs generalizing n k with
  | nil => exact ⟨_, rfl⟩
  | cons b bs ih =>
    obtain ⟨n, rfl⟩ : ∃ m, n = m + 1 := ⟨n - 1, by simp at hn; omega⟩
    have hb : s.fetchByte k = .ok b := h 0 b rfl
    obtain ⟨rest, hrest⟩ := ih (n := n) (k := k + 1) (by simpa using hn) fun j x hx => by
      rw [Nat.add_assoc, Nat.add_comm 1]
      exact h (j + 1) x hx
    exact ⟨rest, by simp [State.fetchBytes, hb, hrest]⟩

/-- Settles O9: the bytes fetched begin with the encoding, so they decode to the instruction, whatever is left over. -/
theorem stepRunsEncoded : Obligations.StepRunsEncoded := by
  intro s i hl hwf hb hbytes
  have hlen : (encode i).length ≤ 15 := by
    rw [encode_length]
    simp only [Instr.wellFormed, Bool.and_eq_true, decide_eq_true_eq] at hwf
    exact hwf.2
  obtain ⟨rest, hfetch⟩ := fetchBytes_eq_append (s := s) (k := 0) hlen (by simpa using hbytes)
  obtain ⟨_, _, _, _, hdecoded⟩ := stepRunsDecoded s
  exact hdecoded i rest hl (breakpointsRefuse_eq_false_iff.1 hb) (by rw [hfetch, decode_encode hwf])

end Sys2Proof.Machine
end

section
/-! PROOF. What every completed instruction keeps and leaves free, registers bit by bit, the reset values, and fetching. -/

namespace Sys2Proof.Machine

/-! ## What every completed instruction does (10_state.md R27, R29, R33, R35; 41_mov_sreg.md R200) -/

section
variable {i : Instr} {s t u : State}

/-- `pc` after an instruction completes does not depend on what the instruction wrote. -/
theorem exec_next_pc (h : exec i s = .next t) : t.pc = s.nextPc i.length := by
  obtain ⟨_, u, _, rfl⟩ := exec_next h
  rfl

/-- Settles O15: `pc` moves when the instruction retires, and `State.nextPc` truncates in the code size before it. -/
theorem nextPcRule : Obligations.NextPcRule := by
  intro i s t h
  rw [exec_next_pc h, State.nextPc]
  cases s.codeSize <;> rfl

/-- No kind of write reaches the table registers, CPL, EFER.LME, the platform or the parameters. -/
theorem Wrote.sameFixed (h : Wrote i s u) : SameFixed s u ∧ u.lme = s.lme := by
  cases h with
  | reg | crDrRead | drWrite => exact ⟨by constructor <;> simp, by simp⟩
  | store => exact ⟨⟨rfl, rfl, rfl, rfl, rfl⟩, rfl⟩
  | sreg f g sel u _ _ _ _ h =>
    obtain ⟨r, cells, _, rfl⟩ := loadSeg_ok h
    exact ⟨by constructor <;> simp, by simp⟩
  | crWrite c v u _ _ h =>
    rw [writeCr_ok h]
    exact ⟨⟨rfl, rfl, rfl, rfl, rfl⟩, rfl⟩

/-- Settles O16: the writes of an instruction keep these fields, and retiring it moves only `pc`, `ss_shadow` and the model's counters. -/
theorem fixedStateKept : Obligations.FixedStateKept := by
  intro i s t h
  obtain ⟨_, u, hu, rfl⟩ := exec_next h
  obtain ⟨⟨hcpl, hgdtr, hldtr, hbacking, hcfg⟩, hlme⟩ := hu.sameFixed
  exact ⟨⟨hcpl, hgdtr, hldtr, hbacking, hcfg⟩, hlme⟩

/-- Settles O19: an instruction retires with `shadowAfter`, and records whether it was a load of SS. -/
theorem ssShadowRule : Obligations.SsShadowRule := by
  intro i s t h
  obtain ⟨_, u, _, rfl⟩ := exec_next h
  refine ⟨by simp, fun hother => ?other, fun hss hafter hshadow => ?first, fun hss hagain => ?again⟩
  case other => exact if_neg hother
  case first => simp [shadowAfter, State.shadowAfterSs, hss, hafter, hshadow]
  case again => simp [shadowAfter, State.shadowAfterSs, hss, hagain]

/-- Only MOV CR and MOV DR touch RFLAGS, and they only draw the status flags. -/
theorem Wrote.flags_eq (h : Wrote i s u) :
    u.flags = if isCrDr i then withStatus s.flags (Config.freeFlags s.draws) else s.flags := by
  cases h with
  | reg w n v hc | store a pas v hc => simp [hc]
  | sreg f g sel u hc _ _ _ h =>
    obtain ⟨r, cells, _, rfl⟩ := loadSeg_ok h
    simp [hc]
  | crDrRead w n v hc | drWrite d v hc => simp [hc, State.drawFlags]
  | crWrite c v u hc _ h =>
    rw [writeCr_ok h, if_pos hc]
    rfl

/-- Settles O22: RFLAGS after the instruction is RFLAGS before it, with the status flags drawn for MOV CR and MOV DR. -/
theorem flagsRule : Obligations.FlagsRule := by
  intro i s t h
  obtain ⟨_, u, hu, rfl⟩ := exec_next h
  have hflags := hu.flags_eq
  refine ⟨fun hc => ?_, fun hc => ?_⟩
  · simpa [hc] using hflags
  · rw [if_pos hc] at hflags
    simp only [SameFlagsButStatus, retire_flags, hflags]
    exact ⟨withStatus_keeps _ _, withStatus_bits _ _⟩

end

/-! ## General registers, bit by bit (10_state.md R22 to R25) -/

/-- A byte register is where `isHighByte` says: AH, CH, DH, BH in the register four below, from bit 8. -/
theorem homeReg_b8 (rex : Bool) (n : BitVec 4) : homeReg rex .b8 n = if isHighByte rex n then n - 4 else n := by
  simp [homeReg, isHighByte_iff]

@[inherit_doc homeReg_b8]
theorem homeBit_b8 (rex : Bool) (n : BitVec 4) : homeBit rex .b8 n = if isHighByte rex n then 8 else 0 := by
  simp [homeBit, isHighByte_iff]

/-- A wider register is the numbered one, from bit 0. -/
theorem homeReg_of_ne {w : Width} (hw : w ≠ .b8) (rex : Bool) (n : BitVec 4) : homeReg rex w n = n := by
  simp [homeReg, hw]

@[inherit_doc homeReg_of_ne]
theorem homeBit_of_ne {w : Width} (hw : w ≠ .b8) (rex : Bool) (n : BitVec 4) : homeBit rex w n = 0 := by
  simp [homeBit, hw]

/-- Truncation keeps the bits below the width (00_scope.md R15). -/
theorem truncTo_getLsbD (w : Width) (v : Quad) (k : Nat) :
    (truncTo w v).getLsbD k = (decide (k < 8 * w.bytes) && v.getLsbD k) := by
  by_cases hk : k < 64
  · cases w <;> simp only [truncTo, Width.bytes, BitVec.getLsbD_setWidth, hk, decide_true, Bool.true_and] <;> rfl
  · rw [BitVec.getLsbD_of_ge _ _ (not_lt.1 hk), BitVec.getLsbD_of_ge _ _ (not_lt.1 hk), Bool.and_false]

/-- Reading a byte register is one extraction from its home. -/
theorem readReg8_eq (s : State) (rex : Bool) (n : BitVec 4) :
    s.readReg8 rex n = (s.x (homeReg rex .b8 n)).extractLsb' (homeBit rex .b8 n) 8 := by
  rw [homeReg_b8, homeBit_b8, State.readReg8]
  split <;> rfl

/-- Settles O24: a byte register by its home, a wider one by truncation. -/
theorem regReadRule : Obligations.RegReadRule := by
  intro s rex w n k
  by_cases hw : w = .b8
  · subst hw
    simp [State.readReg, readReg8_eq, Width.bytes]
    omega
  · rw [homeReg_of_ne hw, homeBit_of_ne hw, Nat.zero_add, ← truncTo_getLsbD]
    cases w
    case b8 => exact absurd rfl hw
    all_goals rfl

/-- Replacing the low `l` bits keeps the bits above them. -/
theorem getLsbD_replaceLow {l m : Nat} (hlm : m + l = 64) (x v : Quad) (k : Nat) :
    (x.extractLsb' l m ++ v.setWidth l).getLsbD k = if k < l then v.getLsbD k else x.getLsbD k := by
  rw [BitVec.getLsbD_append]
  by_cases hlo : k < l
  · simp [hlo]
  by_cases hk : k < 64
  · simp [hlo, show k - l < m by omega, show l + (k - l) = k by omega]
  · simp [hlo, show ¬ k - l < m by omega, BitVec.getLsbD_of_ge x k (by omega)]

/-- Replacing bits 15:8 keeps the bits on both sides. -/
theorem getLsbD_replaceByte1 (x v : Quad) (k : Nat) :
    (x.extractLsb' 16 48 ++ v.setWidth 8 ++ x.extractLsb' 0 8).getLsbD k =
      if 8 ≤ k ∧ k < 8 + 8 then v.getLsbD (k - 8) else x.getLsbD k := by
  rw [BitVec.getLsbD_append, BitVec.getLsbD_append]
  by_cases hlo : k < 8
  · simp [hlo, show ¬ 8 ≤ k by omega]
  by_cases hmid : k < 16
  · simp [hlo, hmid, show 8 ≤ k by omega, show k - 8 < 8 by omega]
  by_cases hk : k < 64
  · simp [hlo, hmid, show ¬ k - 8 < 8 by omega, show k - 8 - 8 < 48 by omega, show 16 + (k - 8 - 8) = k by omega]
  · simp [hlo, hmid, show ¬ k - 8 < 8 by omega, show ¬ k - 8 - 8 < 48 by omega, BitVec.getLsbD_of_ge x k (by omega)]

section
variable {s : State} {rex : Bool} {w : Width} {n m : BitVec 4} {v u : Quad} {b : Nat}

/-- Setting the home of an operand to `u` is the register write, when the bits of `u` are those that the write asks for. -/
theorem regWritten_setX (hm : homeReg rex w n = m)
    (hvalue : ∀ k, k < 8 * w.bytes → u.getLsbD (homeBit rex w n + k) = v.getLsbD k)
    (hkept : w = .b8 ∨ w = .b16 → ∀ k, k < homeBit rex w n ∨ homeBit rex w n + 8 * w.bytes ≤ k → u.getLsbD k = (s.x m).getLsbD k)
    (hcleared : w = .b32 → s.mode = .long64 → ∀ k, 32 ≤ k → u.getLsbD k = false) :
    RegWritten s (s.setX m u) rex w n v := by
  subst hm
  refine ⟨?_, ?_, ?_, fun m hm => x_setX_ne s _ u (by simpa [eq_comm] using hm)⟩
  all_goals rwa [x_setX_self]

/-- An 8- or 16-bit write replaces the bits of the operand in its home, from bit `b`, and keeps the others. -/
theorem regWritten_of_replaced (hm : homeReg rex w n = m) (hb : homeBit rex w n = b) (hw : w = .b8 ∨ w = .b16)
    (hu : ∀ k, u.getLsbD k = if b ≤ k ∧ k < b + 8 * w.bytes then v.getLsbD (k - b) else (s.x m).getLsbD k) :
    RegWritten s (s.setX m u) rex w n v := by
  subst hb
  refine regWritten_setX hm (fun k hk => ?value) (fun _ k hk => ?kept) fun h32 => ?cleared
  case value => rw [hu, if_pos (by omega), Nat.add_sub_cancel_left]
  case kept => rw [hu, if_neg (by omega)]
  case cleared => rcases hw with rfl | rfl <;> cases h32

/-- A write of the low bits of a register. -/
theorem regWritten_of_replacedLow {l : Nat} (hm : homeReg rex w n = m) (hb : homeBit rex w n = 0) (hw : w = .b8 ∨ w = .b16)
    (hl : 8 * w.bytes = l) (hu : ∀ k, u.getLsbD k = if k < l then v.getLsbD k else (s.x m).getLsbD k) :
    RegWritten s (s.setX m u) rex w n v :=
  regWritten_of_replaced hm hb hw (by simpa [hl] using hu)

end

/-- A register write of each width replaces, extends or overwrites the home of its operand. -/
theorem regWritten_writeReg (s : State) (rex : Bool) (w : Width) (n : BitVec 4) (v : Quad) :
    RegWritten s (s.writeReg rex w n v) rex w n v := by
  cases w with
  | b8 =>
    have hhome := homeReg_b8 rex n
    have hbit := homeBit_b8 rex n
    rw [State.writeReg, State.writeReg8]
    split
    next hh =>
      rw [if_pos hh] at hhome hbit
      exact regWritten_of_replaced hhome hbit (.inl rfl) (getLsbD_replaceByte1 _ v)
    next hh =>
      rw [if_neg hh] at hhome hbit
      exact regWritten_of_replacedLow hhome hbit (.inl rfl) rfl (getLsbD_replaceLow rfl _ v)
  | b16 =>
    exact regWritten_of_replacedLow (homeReg_of_ne (by decide) rex n) (homeBit_of_ne (by decide) rex n) (.inr rfl) rfl
      (getLsbD_replaceLow rfl _ v)
  | b32 =>
    refine regWritten_setX (homeReg_of_ne (by decide) rex n) (fun k hk => ?value) (by simp) fun _ hm k hk => ?cleared
    case value =>
      rw [homeBit_of_ne (by decide), Nat.zero_add]
      have hk : k < 32 := hk
      exact BitVec.getLsbD_append.trans (by simp [hk])
    case cleared => exact BitVec.getLsbD_append.trans (by simp [hk.not_gt, State.upper32, hm])
  | b64 =>
    refine regWritten_setX (homeReg_of_ne (by decide) rex n) (fun k _ => ?_) (by simp) (by simp)
    rw [homeBit_of_ne (by decide), Nat.zero_add]

/-- A register write changes nothing but general registers. -/
theorem sameSystem_writeReg (s : State) (rex : Bool) (w : Width) (n : BitVec 4) (v : Quad) :
    SameSystem s (s.writeReg rex w n v) where
  flags := by simp
  segs := by constructor <;> simp
  crs := by constructor <;> simp
  drs := by constructor <;> simp
  fixed := by constructor <;> simp

/-- Settles O25: the bits of the home of the operand, and the frame. -/
theorem regWriteRule : Obligations.RegWriteRule := fun s rex w n v =>
  ⟨regWritten_writeReg s rex w n v, sameSystem_writeReg s rex w n v, fun a => by rw [writeReg_mem]⟩

/-! ## Reset (10_state.md R52) -/

/-- Settles O14: the fields of `State.reset`, and those of each segment register. -/
theorem resetValues : Obligations.ResetValues := by
  refine ⟨by decide, rfl, rfl, rfl, rfl, rfl, rfl, rfl, fun g hg => ?dataSegs, fun g => ?allSegs, by decide⟩
  case dataSegs =>
    cases g with
    | cs => exact absurd rfl hg
    | es | ss | ds | fs | gs => exact ⟨rfl, rfl, rfl⟩
  case allSegs => cases g <;> exact ⟨rfl, rfl⟩

/-! ## Fetching (10_state.md R27; 60_exceptions.md R277) -/

section
variable {s : State} {k : Nat}

/-- In 64-bit mode CS has no base (20_memory.md R69). -/
theorem linear_cs_of_long64 (hm : s.mode = .long64) (ea : Quad) (k : Nat) : s.linear .cs ea k = ea + BitVec.ofNat 64 k := by
  simp [State.linear, hm]

/-- Elsewhere the linear address is the truncated sum (20_memory.md R68). -/
theorem linear_of_not_long64 (hm : s.mode ≠ .long64) (g : SegReg) (ea : Quad) (k : Nat) :
    s.linear g ea k = (((s.seg g).hidden.d.base + ea + BitVec.ofNat 64 k).setWidth 32).setWidth 64 := by
  simp [State.linear, hm, truncTo]

/-- User privilege: virtual-8086 mode, or CPL 3 outside real-address mode (10_state.md R33). -/
theorem privilege_eq_three_iff : s.privilege = 3 ↔ s.mode = .v86 ∨ (s.mode ≠ .real ∧ s.cpl = 3) := by
  cases hm : s.mode <;> simp [State.privilege, hm]

/-- The checks of a fetch before its translation allow byte `k`: the offset space, canonical form in 64-bit mode, the CS limit elsewhere. -/
def State.fetchAllowed (s : State) (k : Nat) : Prop :=
  s.pc.toNat + k ≤ s.pcTop ∧ (s.mode = .long64 → s.canonical (s.linear .cs s.pc k) = true) ∧
    (s.mode ≠ .long64 → InsideLimit s.cs.hidden.d (s.pc.toNat + k) 1)

/-- The kind of the access that a fetch makes (20_memory.md R74). -/
def State.fetchKind (s : State) : AccessKind :=
  { type := .fetch, user := decide (s.mode = .v86 ∨ (s.mode ≠ .real ∧ s.cpl = 3)) }

theorem fetchByte_of_pcTop_lt (h : s.pcTop < s.pc.toNat + k) : s.fetchByte k = .error (.refuse (.notInSpec .pcWrap)) := by
  simp [State.fetchByte, State.fetchAddr, h]

theorem fetchByte_of_not_canonical (hm : s.mode = .long64) (hc : s.canonical (s.linear .cs s.pc k) = false) :
    s.fetchByte k = .error (.refuse (.notInSpec .pcWrap)) := by
  simp [State.fetchByte, State.fetchAddr, hm, hc]

theorem fetchByte_of_not_insideLimit (ho : s.pc.toNat + k ≤ s.pcTop) (hm : s.mode ≠ .long64)
    (hl : ¬ InsideLimit s.cs.hidden.d (s.pc.toNat + k) 1) : s.fetchByte k = .error (.exc (.gp 0)) := by
  simp [State.fetchByte, State.fetchAddr, ho.not_gt, hm, inLimit_iff.not.2 hl]

/-- The kind with which `State.fetchAddr` translates. -/
theorem fetchKind_eq (s : State) : s.fetchKind = { type := .fetch, user := s.privilege == 3 } := by
  simp only [State.fetchKind, ← privilege_eq_three_iff]
  rfl

/-- The tests of `State.fetchAddr` let an allowed byte through. -/
theorem State.fetchAllowed.passes (h : s.fetchAllowed k) :
    ¬ s.pcTop < s.pc.toNat + k ∧ ¬ (s.mode = .long64 ∧ ¬ s.canonical (s.linear .cs s.pc k) = true) ∧
      ¬ (s.mode ≠ .long64 ∧ ¬ inLimit s.cs.hidden.d (s.pc.toNat + k) 1 = true) := by
  obtain ⟨ho, hc, hl⟩ := h
  exact ⟨ho.not_gt, by simpa using hc, by simpa [inLimit_iff] using hl⟩

/-- A byte that the checks allow faults as its translation does. -/
theorem fetchByte_of_pageFault {c : BitVec 32} (h : s.fetchAllowed k)
    (ht : s.translate (s.linear .cs s.pc k) s.fetchKind = .pageFault c) :
    s.fetchByte k = .error (.exc (.pf c (s.linear .cs s.pc k))) := by
  obtain ⟨ho, hc, hl⟩ := h.passes
  have haddr : s.fetchAddr k = .error (.exc (.pf c (s.linear .cs s.pc k))) := by
    rw [State.fetchAddr, if_neg ho, if_neg hc, if_neg hl, ← fetchKind_eq, ht]
  simp [State.fetchByte, haddr]

/-- It is the byte of memory at its translation, if that is backed (20_memory.md R76, R84). -/
theorem fetchByte_of_phys {pa : Quad} (h : s.fetchAllowed k) (ht : s.translate (s.linear .cs s.pc k) s.fetchKind = .phys pa) :
    s.fetchByte k = if s.backed pa.toNat then .ok (Memory.read s.mem pa.toNat) else .error (.refuse .unbackedMemory) := by
  obtain ⟨ho, hc, hl⟩ := h.passes
  have haddr : s.fetchAddr k = .ok pa.toNat := by
    rw [State.fetchAddr, if_neg ho, if_neg hc, if_neg hl, ← fetchKind_eq, ht]
  simp [State.fetchByte, haddr]

/-- Without its first byte an instruction stops as the fetch of that byte does. -/
theorem fetchInstr_of_fetchByte_zero_error {e : Stop} (h : s.fetchByte 0 = .error e) : s.fetchInstr = .error e := by
  simp [State.fetchInstr, State.fetchBytes, h, decode, decodeFrom]

end

/-- Settles O11: the clauses of `State.fetchByte`, with the linear address in the words of R68 and R69. -/
theorem fetchByteRule : Obligations.FetchByteRule := by
  intro s k o top la kind allowed
  have htop : top = s.pcTop := by
    rw [State.pcTop]
    cases hc : s.codeSize <;> simp [top, hc]
  have hla : la = s.linear .cs s.pc k := by
    by_cases hm : s.mode = .long64
    · rw [linear_cs_of_long64 hm]; exact if_pos hm
    · rw [linear_of_not_long64 hm]; exact if_neg hm
  have hallowed : allowed → s.fetchAllowed k := by simp only [allowed, htop, hla]; exact id
  rw [htop, hla]
  exact ⟨fetchByte_of_pcTop_lt, fun _ => fetchByte_of_not_canonical, fetchByte_of_not_insideLimit,
    fun c h => fetchByte_of_pageFault (hallowed h), fun pa h => fetchByte_of_phys (hallowed h),
    fun e hl hb h => step_of_fetchInstr_error hl hb (fetchInstr_of_fetchByte_zero_error h)⟩

end Sys2Proof.Machine
end

section
/-! PROOF. Memory: bytes and their order, the checks of a data access in their order, the operands' addresses, the PDPT, and a fetch that stops. -/

namespace Sys2Proof.Machine

/-! ## What an instruction does to memory, and its only refusal (20_memory.md R64, R76) -/

/-- Settles O18: every stop of an instruction is one of `Stop.ofExec`, whose only refusal is the want of ordinary memory. -/
theorem onlyUnbackedRefused : Obligations.OnlyUnbackedRefused := by
  intro i s r h
  rcases exec_ends i s with ⟨t, ht⟩ | ⟨e | r', he, ho⟩
  · simp [ht] at h
  · simp [he, State.stop] at h
  · have hr : r' = r := by simpa [he, State.stop] using h
    exact hr ▸ ho

/-- Only a store and the load of a segment register write memory; a store writes the bytes that its access resolves to. -/
theorem Wrote.mem_eq_or_storeAt {i : Instr} {s u : State} (h : Wrote i s u) (hl : loadedSreg i = none) :
    u.mem = s.mem ∨
      ∃ a pas v, s.dataAccess i = some a ∧ a.type = .write ∧ s.resolve a.seg a.ea a.bytes .write = .ok pas ∧ u = s.storeAt pas v := by
  cases h with
  | reg | crDrRead | drWrite => exact .inl (by simp)
  | store a pas v _ _ hs ht hr => exact .inr ⟨a, pas, v, hs, ht, hr, rfl⟩
  | sreg f g sel u _ hf => simp [hl] at hf
  | crWrite c v u _ _ h =>
    rw [writeCr_ok h]
    exact .inl rfl

/-- The data access of an 8E row is a read (20_memory.md R64). -/
theorem loadedSreg_eq_none_of_write {i : Instr} {s : State} {a : DataAccess} (ha : s.dataAccess i = some a) (hw : a.type = .write) :
    loadedSreg i = none := by
  cases i
  case movSregRm16 p f rm | movSregRm64 p f rm =>
    cases rm <;> simp [State.dataAccess, State.rmAccess] at ha
    simp [← ha] at hw
  all_goals rfl

/-- Settles O23: the only store of a completed instruction goes to the addresses that its data access resolves to. -/
theorem memoryFrame : Obligations.MemoryFrame := by
  intro i s t h
  obtain ⟨_, u, hu, rfl⟩ := exec_next h
  refine ⟨fun a ha hw pas hpas => ?store, fun hnone hl => ?noStore⟩
  case store =>
    rcases hu.mem_eq_or_storeAt (loadedSreg_eq_none_of_write ha hw) with hm | ⟨a', pas', v, ha', _, hpas', rfl⟩
    · exact fun _ _ => congrArg (Memory.read · _) hm
    · obtain rfl : a = a' := Option.some.inj (ha.symm.trans ha')
      obtain rfl : pas = pas' := Except.ok.inj (hpas.symm.trans hpas')
      exact storeAt_frame s pas v
  case noStore =>
    rcases hu.mem_eq_or_storeAt hl with hm | ⟨a, _, _, ha, hw, _⟩
    · exact fun _ => congrArg (Memory.read · _) hm
    · exact absurd hw (hnone a ha)

/-! ## The byte order (20_memory.md R62) -/

/-- Bit `k` of the value of bytes is bit `k % 8` of byte `k / 8`. -/
theorem fromBytes_getLsbD (bs : List Byte) {k : Nat} (hk : k < 64) :
    (fromBytes bs).getLsbD k = (bs.getD (k / 8) 0).getLsbD (k % 8) := by
  induction bs generalizing k with
  | nil => simp [fromBytes]
  | cons b bs ih =>
    rw [fromBytes, BitVec.getLsbD_or, BitVec.getLsbD_shiftLeft, BitVec.getLsbD_setWidth]
    by_cases h8 : k < 8
    · simp [h8, hk, Nat.div_eq_of_lt h8, Nat.mod_eq_of_lt h8]
    · have hdiv : k / 8 = (k - 8) / 8 + 1 := by omega
      have hmod : k % 8 = (k - 8) % 8 := by omega
      rw [ih (by omega), hdiv, hmod, List.getD_cons_succ, BitVec.getLsbD_of_ge b k (by omega)]
      simp [h8, hk]

/-- Byte `k` of a load is the byte at its `k`-th address. -/
theorem loadAt_byte (s : State) {pas : List Nat} {k : Nat} (h : k < pas.length) (hk : k < 8) :
    (s.loadAt pas).extractLsb' (8 * k) 8 = Memory.read s.mem pas[k] := by
  ext j hj
  have hdiv : (8 * k + j) / 8 = k := by omega
  have hmod : (8 * k + j) % 8 = j := by omega
  rw [BitVec.getElem_extractLsb', State.loadAt, fromBytes_getLsbD _ (by omega), hdiv, hmod]
  simp [h, hj]

/-- Above its bytes a load is zero. -/
theorem loadAt_above (s : State) {pas : List Nat} {k : Nat} (hk : 8 * pas.length ≤ k) : (s.loadAt pas).getLsbD k = false := by
  by_cases h64 : k < 64
  · have hout : pas.length ≤ k / 8 := by omega
    rw [State.loadAt, fromBytes_getLsbD _ h64]
    simp [hout]
  · exact BitVec.getLsbD_of_ge _ _ (by omega)

/-- A store puts byte `k` of the value at its `k`-th address, since the addresses and the bytes are written in pairs. -/
theorem storedAt_storeAt (s : State) (pas : List Nat) (v : Quad) : StoredAt pas v s (s.storeAt pas v) where
  bytes hm hn k h := by
    refine read_writeAll_of_mem hm (by rwa [List.map_fst_zip (by simp)]) ?_
    have hk : k < (pas.zip (toBytes pas.length v)).length := by simpa using h
    have hget := List.getElem_mem hk
    rwa [List.getElem_zip, toBytes_get _ v k h] at hget
  others := storeAt_frame s pas v

/-- Settles O26: the bytes of a load, the zeros above them, and the bytes of a store. -/
theorem byteOrder : Obligations.ByteOrder := fun s pas hlen =>
  ⟨fun _ h => loadAt_byte s h (by omega), fun _ => loadAt_above s, storedAt_storeAt s pas⟩

/-! ## A data access, in the order of its checks (20_memory.md R66) -/

section
variable {s : State} {a : DataAccess}

/-- Past the segment and alignment checks an access is its translation and the test for ordinary memory. -/
theorem resolve_of_allowed (hs : s.segmentAllows a) (ha : s.alignmentAllows a) :
    s.resolve a.seg a.ea a.bytes a.type =
      s.physical (s.dataKind a.type) ((List.range a.bytes).map (s.byteAddress a)) >>= s.requireBacked := by
  have hseg : s.segCheck a.seg a.ea a.bytes (a.type == .write) = .ok () := segCheck_ok_iff.2 hs
  have halign : s.alignCheck (s.linear a.seg a.ea 0) a.bytes = .ok () := alignCheck_ok_iff.2 fun h => ha (alignChecked_iff.1 h)
  rw [State.resolve, hseg, halign]
  rfl

/-- Where every byte translates, only the test for ordinary memory is left. -/
theorem resolve_of_phys {pa : Nat → Quad} (hs : s.segmentAllows a) (ha : s.alignmentAllows a)
    (ht : ∀ k, k < a.bytes → s.translate (s.byteAddress a k) (s.dataKind a.type) = .phys (pa k)) :
    s.resolve a.seg a.ea a.bytes a.type = s.requireBacked ((List.range a.bytes).map fun k => (pa k).toNat) := by
  have hphys := physical_ok_of (s := s) (k := s.dataKind a.type) (las := (List.range a.bytes).map (s.byteAddress a))
    (pas := (List.range a.bytes).map pa) (by simpa using ht)
  rw [resolve_of_allowed hs ha, hphys, ok_bind, List.map_map]
  rfl

/-- The kind of a data access has user privilege at CPL 3 (20_memory.md R74). -/
theorem dataKind_eq (s : State) (t : AccessType) :
    s.dataKind t = { type := t, user := decide (s.mode = .v86 ∨ (s.mode ≠ .real ∧ s.cpl = 3)) } := by
  simp only [← privilege_eq_three_iff]
  rfl

/-- In 64-bit mode FS and GS alone have a base (20_memory.md R69). -/
theorem linear_of_long64 (hm : s.mode = .long64) (g : SegReg) (ea : Quad) (k : Nat) :
    s.linear g ea k = (if g = .fs ∨ g = .gs then (s.seg g).hidden.d.base else 0) + ea + BitVec.ofNat 64 k := by
  simp [State.linear, hm]

theorem pagingOn_eq_false (h : cr0PG s.cr0 = false ∨ s.mode = .real) : s.pagingOn = false := by
  rcases h with h | h <;> simp [State.pagingOn, h]

theorem translate_of_pagingOff (h : s.pagingOn = false) (la : Quad) (k : AccessKind) : s.translate la k = .phys la := by
  simp [State.translate, h]

theorem translate_of_noneKnown (h : s.pagingOn = true) (hk : s.cfg.translations = []) (la : Quad) (k : AccessKind) :
    s.translate la k = Config.translate s la k := by
  simp [State.translate, h, hk, knownTranslation]

/-! ### The segment checks (20_memory.md R67, R71) -/

theorem inProtected_iff : (s.mode == .prot || s.mode == .compat) = true ↔ s.inProtected := by
  simp [State.inProtected]

theorem not_long64_of_inProtected (h : s.inProtected) : s.mode ≠ .long64 := by
  rcases h with h | h <;> simp [h]

/-- R67 (a). -/
theorem segCheck_of_throughNull (hp : s.inProtected) (hn : s.throughNull a) :
    s.segCheck a.seg a.ea a.bytes (a.type == .write) = .error (.exc (.gp 0)) := by
  have hnull : (s.seg a.seg).hidden.null = true := hn
  simp [State.segCheck, not_long64_of_inProtected hp, inProtected_iff.2 hp, hnull]

/-- R67 (b), for a load too (entry 16): the answer is that of (a), whichever of the two applies first. -/
theorem segCheck_of_not_kindAllows (hp : s.inProtected) (hk : ¬ s.kindAllows a) :
    s.segCheck a.seg a.ea a.bytes (a.type == .write) = .error (.exc (.gp 0)) := by
  by_cases hw : a.type = .write
  · have hno : segWritable (s.seg a.seg).hidden.d.kind = false := by simpa [State.kindAllows, hw] using hk
    simp [State.segCheck, not_long64_of_inProtected hp, inProtected_iff.2 hp, hw, hno]
  · have hno : segReadable (s.seg a.seg).hidden.d.kind = false := by simpa [State.kindAllows, hw] using hk
    simp [State.segCheck, not_long64_of_inProtected hp, inProtected_iff.2 hp, hw, hno]

/-- R67 (c), once (a) and (b) allow the access or do not apply. -/
theorem segCheck_of_not_insideLimit (hm : s.mode ≠ .long64) (hp : s.inProtected → ¬ s.throughNull a ∧ s.kindAllows a)
    (hl : ¬ InsideLimit (s.seg a.seg).hidden.d a.ea.toNat a.bytes) :
    s.segCheck a.seg a.ea a.bytes (a.type == .write) = .error (segFault a.seg) := by
  rw [← inLimit_iff] at hl
  by_cases h : s.inProtected
  · obtain ⟨hnull, hkind⟩ := hp h
    have hnull : (s.seg a.seg).hidden.null = false := by simpa [State.throughNull] using hnull
    by_cases hw : a.type = .write
    · have hyes : segWritable (s.seg a.seg).hidden.d.kind = true := by simpa [State.kindAllows, hw] using hkind
      simp [State.segCheck, hm, hnull, hw, hyes, hl]
    · have hyes : segReadable (s.seg a.seg).hidden.d.kind = true := by simpa [State.kindAllows, hw] using hkind
      simp [State.segCheck, hm, hnull, hw, hyes, hl]
  · simp [State.segCheck, hm, mt inProtected_iff.1 h, hl]

/-- In 64-bit mode one byte without canonical form is enough (20_memory.md R71). -/
theorem segCheck_of_not_canonical {k : Nat} (hm : s.mode = .long64) (hk : k < a.bytes) (hc : s.canonical (s.byteAddress a k) = false) :
    s.segCheck a.seg a.ea a.bytes (a.type == .write) = .error (segFault a.seg) := by
  have hall : ¬ ((List.range a.bytes).all fun k => s.canonical (s.linear a.seg a.ea k)) = true := fun h => by
    have hck : s.canonical (s.byteAddress a k) = true := List.all_eq_true.1 h k (List.mem_range.2 hk)
    simp [hc] at hck
  simp only [State.segCheck, hm, if_true, if_neg hall]

/-! ### Alignment, translation and ordinary memory (20_memory.md R72, R74, R76) -/

/-- Alignment is checked before any byte is translated. -/
theorem resolve_of_unaligned (hs : s.segmentAllows a) (hc : s.alignmentCounts) (hu : (s.byteAddress a 0).toNat % a.bytes ≠ 0) :
    s.resolve a.seg a.ea a.bytes a.type = .error (.exc (.ac 0)) := by
  have halign : s.alignCheck (s.linear a.seg a.ea 0) a.bytes = .error (.exc (.ac 0)) :=
    alignCheck_error_iff.2 ⟨alignChecked_iff.2 hc, hu, rfl⟩
  rw [State.resolve, segCheck_ok_iff.2 hs, halign]
  rfl

/-- The lowest byte whose translation faults tells why. -/
theorem resolve_of_pageFault {k : Nat} {c : BitVec 32} (hs : s.segmentAllows a) (ha : s.alignmentAllows a) (hk : k < a.bytes)
    (hlow : ∀ j, j < k → ∃ pa, s.translate (s.byteAddress a j) (s.dataKind a.type) = .phys pa)
    (hc : s.translate (s.byteAddress a k) (s.dataKind a.type) = .pageFault c) :
    s.resolve a.seg a.ea a.bytes a.type = .error (.exc (.pf c (s.byteAddress a k))) := by
  have hphys := physical_error_of (s := s) (k := s.dataKind a.type) (las := (List.range a.bytes).map (s.byteAddress a)) (j := k)
    (c := c) (by simpa using hk) (by simpa using hlow) (by simpa using hc)
  rw [resolve_of_allowed hs ha, hphys, error_bind]
  simp

/-- One translated byte without ordinary memory is enough. -/
theorem resolve_of_unbacked {pa : Nat → Quad} {k : Nat} (hs : s.segmentAllows a) (ha : s.alignmentAllows a)
    (ht : ∀ j, j < a.bytes → s.translate (s.byteAddress a j) (s.dataKind a.type) = .phys (pa j)) (hk : k < a.bytes)
    (hb : s.backed (pa k).toNat = false) : s.resolve a.seg a.ea a.bytes a.type = .error (.refuse .unbackedMemory) := by
  have hmem : (pa k).toNat ∈ (List.range a.bytes).map fun j => (pa j).toNat := List.mem_map.2 ⟨k, List.mem_range.2 hk, rfl⟩
  rw [resolve_of_phys hs ha ht]
  exact requireBacked_error_iff.2 ⟨⟨_, hmem, hb⟩, rfl⟩

end

/-- Settles O28: each clause is a lemma on the linear address, its translation or the access; the bytes found are all backed. -/
theorem accessCompletes : Obligations.AccessCompletes := by
  intro s a
  refine ⟨fun k hm => linear_of_not_long64 hm _ _ _, fun k hm => linear_of_long64 hm _ _ _, dataKind_eq s _,
    fun la k h => translate_of_pagingOff (pagingOn_eq_false h) la k,
    fun la k hpg hm hk => translate_of_noneKnown (by simp [State.pagingOn, hpg, hm]) hk la k, fun pa hs ha ht hb => ?_⟩
  rw [resolve_of_phys hs ha ht]
  exact requireBacked_ok_iff.2 ⟨by simpa using hb, rfl⟩

/-- Settles O29: each failing segment check stops the access, and with it the instruction. -/
theorem segmentCheckFaults : Obligations.SegmentCheckFaults := by
  intro i s a hr ha hm
  have hstop : ∀ e, s.segCheck a.seg a.ea a.bytes (a.type == .write) = .error e → exec i s = s.stop e :=
    fun e h => exec_of_resolve_error hr ha (resolve_of_segCheck h)
  exact ⟨fun hp hn => hstop _ (segCheck_of_throughNull hp hn), fun hp hk => hstop _ (segCheck_of_not_kindAllows hp hk),
    fun hp hl => hstop _ (segCheck_of_not_insideLimit hm hp hl)⟩

/-- Settles O30: the address of the clause is the linear address of byte `k` in 64-bit mode. -/
theorem nonCanonicalFaults : Obligations.NonCanonicalFaults := by
  intro i s a k hr ha hm hk hc
  rw [← linear_of_long64 hm] at hc
  exact exec_of_resolve_error hr ha (resolve_of_segCheck (segCheck_of_not_canonical hm hk hc))

/-- Settles O31: the access stops at its alignment check. -/
theorem alignmentFaults : Obligations.AlignmentFaults := fun _ _ _ hr ha hs hc hu =>
  exec_of_resolve_error hr ha (resolve_of_unaligned hs hc hu)

/-- Settles O32: past the checks the access stops at a byte that faults or is not backed. -/
theorem translationStops : Obligations.TranslationStops := fun _ _ _ hr ha hs hal =>
  ⟨fun _ _ hk hlow hc => exec_of_resolve_error hr ha (resolve_of_pageFault hs hal hk hlow hc),
    fun _ _ ht hk hb => exec_of_resolve_error (e := .refuse .unbackedMemory) hr ha (resolve_of_unbacked hs hal ht hk hb)⟩

/-! ## The segment of an operand (20_memory.md R65) -/

theorem segmentOf_none {s : State} {p : Prefixes} (h : p.seg = none) (dflt : SegReg) : s.segmentOf p dflt = dflt := by
  simp [State.segmentOf, h]

theorem segmentOf_some {s : State} {p : Prefixes} {g : SegReg} (h : p.seg = some g) (dflt : SegReg) :
    s.segmentOf p dflt = if s.mode = .long64 ∧ g ≠ .fs ∧ g ≠ .gs then dflt else g := by
  simp [State.segmentOf, h]

/-- Settles O36: the override is heeded or not, and a memory offset is zero-extended. -/
theorem operandSegment : Obligations.OperandSegment := by
  intro s p
  refine ⟨fun _ h => segmentOf_none h _, fun dflt g h hg => ?heeded, fun dflt g h hm hfs hgs => ?ignored, fun _ _ => rfl,
    fun o => ?o16, fun o => ?o32, fun _ => rfl⟩
  case heeded =>
    rw [segmentOf_some h, if_neg]
    rintro ⟨hm, hfs, hgs⟩
    rcases hg with hg | hg | hg
    exacts [hg hm, hfs hg, hgs hg]
  case ignored => rw [segmentOf_some h, if_pos ⟨hm, hfs, hgs⟩]
  case o16 | o32 => simp [State.moffsOperand, BitVec.ofNat_toNat]

/-! ## The load of the PDPT (20_memory.md R75) -/

/-- Where the PDPT is: CR3[31:5] ∥ 00000. -/
def State.pdptBase (s : State) : Nat := (s.cr3.extractLsb' 5 27).toNat * 32

section
variable {s u : State} {isCr3 : Bool}

/-- A write loads the PDPT where PAE paging is in use after it, and it is of CR3 or changes one of seven bits. -/
theorem loadsPdpt_iff : loadsPdpt s u isCr3 = true ↔
    (u.cr0.getLsbD 31 = true ∧ u.cr4.getLsbD 5 = true ∧ (u.cfg.arch64 && u.lma) = false) ∧
      (isCr3 = true ∨ (∃ n ∈ [29, 30, 31], s.cr0.getLsbD n ≠ u.cr0.getLsbD n) ∨
        ∃ n ∈ [4, 5, 7, 20], s.cr4.getLsbD n ≠ u.cr4.getLsbD n) := by
  rw [loadsPdpt, Bool.and_eq_true]
  refine and_congr ?pae ?causes
  case pae => simp only [State.paePaging, State.longActive, cr0PG, cr4PAE, Bool.and_eq_true, Bool.not_eq_true', and_assoc]
  case causes =>
    simp only [cr0PG, cr0CD, cr0NW, cr4PAE, cr4PGE, cr4PSE, cr4SMEP, Bool.or_eq_true, bne_iff_ne, List.mem_cons, List.not_mem_nil,
      or_false, exists_eq_or_imp, exists_eq_left]
    tauto

/-- The mask by which `State.pdpteAddrs` takes bits 31:5. -/
theorem pdptMask_getLsbD : ∀ k, k < 64 → (0xFFFFFFE0 : Quad).getLsbD k = decide (5 ≤ k ∧ k < 32) := by decide

/-- The address under the mask is those bits, shifted back to their place. -/
theorem pdptBase_eq (u : State) : (u.cr3 &&& (0xFFFFFFE0 : Quad)).toNat = u.pdptBase := by
  have hshift : u.cr3 &&& (0xFFFFFFE0 : Quad) = (u.cr3.extractLsb' 5 27).setWidth 64 <<< 5 := by
    refine BitVec.eq_of_getLsbD_eq fun k hk => ?_
    rw [BitVec.getLsbD_and, pdptMask_getLsbD k hk]
    by_cases h5 : 5 ≤ k
    · have hlt : k - 5 < 27 ↔ k < 32 := by omega
      simp [h5, hk, hlt, Bool.and_comm]
    · simp [h5, hk]
  rw [hshift, BitVec.toNat_shiftLeft, BitVec.toNat_setWidth, Nat.shiftLeft_eq, State.pdptBase]
  have hlt := (u.cr3.extractLsb' 5 27).isLt
  omega

theorem pdpteAddrs_getElem (u : State) {k j : Nat} (hj : j < (u.pdpteAddrs k).length) :
    (u.pdpteAddrs k)[j] = u.pdptBase + 8 * k + j := by
  simp only [State.pdpteAddrs, List.getElem_map, List.getElem_range, pdptBase_eq]

/-- The four entries of 8 bytes are the 32 bytes of the table. -/
theorem pdpteAddrs_backed_iff : ((List.range 4).all fun k => (u.pdpteAddrs k).all u.backed) = true ↔
    ∀ k, k < 32 → u.backed (u.pdptBase + k) = true := by
  simp only [State.pdpteAddrs, pdptBase_eq, List.all_eq_true, List.mem_range, List.mem_map, forall_exists_index, and_imp,
    forall_apply_eq_imp_iff₂]
  constructor
  · intro h k hk
    have hbyte := h (k / 8) (by omega) (k % 8) (by omega)
    rwa [Nat.add_assoc, Nat.div_add_mod] at hbyte
  · intro h k hk j hj
    rw [Nat.add_assoc]
    exact h _ (by omega)

/-- Byte `j` of the loaded entry `k`, little-endian. -/
theorem withPdpt_byte (u : State) {k j : Nat} (hk : k < 4) (hj : j < 8) :
    (u.withPdpt.pdpte[k]).extractLsb' (8 * j) 8 = Memory.read u.mem (u.pdptBase + 8 * k + j) := by
  have hentry : u.withPdpt.pdpte[k] = u.loadAt (u.pdpteAddrs k) := by
    match k, hk with
    | 0, _ | 1, _ | 2, _ | 3, _ => rfl
  have hlen : j < (u.pdpteAddrs k).length := by simpa [State.pdpteAddrs] using hj
  rw [hentry, loadAt_byte u hlen hj, pdpteAddrs_getElem u hlen]

theorem pdptLoad_of_not_loads (h : ¬ loadsPdpt s u isCr3 = true) : s.pdptLoad u isCr3 = .ok u := if_neg h

theorem pdptLoad_of_unbacked {k : Nat} (h : loadsPdpt s u isCr3 = true) (hk : k < 32) (hb : u.backed (u.pdptBase + k) = false) :
    s.pdptLoad u isCr3 = .error (.refuse .unbackedMemory) := by
  rw [State.pdptLoad, if_pos h, if_neg]
  intro hall
  exact Bool.false_ne_true (hb.symm.trans (pdpteAddrs_backed_iff.1 hall k hk))

theorem pdptLoad_of_backed (h : loadsPdpt s u isCr3 = true) (hb : ∀ k, k < 32 → u.backed (u.pdptBase + k) = true) :
    s.pdptLoad u isCr3 =
      if s.mode = .prot ∧ Config.pdptReservedBitSet u.withPdpt then .error (.exc (.gp 0)) else .ok u.withPdpt := by
  rw [State.pdptLoad, if_pos h, if_pos (pdpteAddrs_backed_iff.2 hb)]

end

/-- Settles O57: whether the write loads the table, and if so the state with the table loaded. -/
theorem pdptLoadRule : Obligations.PdptLoadRule := by
  intro s u isCr3 pae causes
  have hloads : loadsPdpt s u isCr3 = true ↔ pae ∧ causes := loadsPdpt_iff
  refine ⟨fun hno => ?noPae, fun hno => ?noCause, fun base hpae hcauses hbase => ?loads⟩
  case noPae => exact pdptLoad_of_not_loads fun h => hno (hloads.1 h).1
  case noCause => exact pdptLoad_of_not_loads fun h => hno (hloads.1 h).2
  case loads =>
    obtain rfl : base = u.pdptBase := hbase
    have hload := hloads.2 ⟨hpae, hcauses⟩
    exact ⟨fun ⟨k, hk, hb⟩ => pdptLoad_of_unbacked hload hk hb,
      fun hb => ⟨u.withPdpt, rfl, fun k hk j hj => withPdpt_byte u hk hj, pdptLoad_of_backed hload hb⟩⟩

/-! ## A fetch that stops (30_encoding.md R92; entries 25 and 27) -/

/-- Bytes that can be fetched one by one are fetched, and the fetch goes on after them. -/
theorem fetchBytes_of_fetched {s : State} {bs : List Byte} {k : Nat} (n : Nat)
    (h : ∀ (j : Nat) (b : Byte), bs[j]? = some b → s.fetchByte (k + j) = .ok b) :
    s.fetchBytes (bs.length + n) k = (bs ++ (s.fetchBytes n (k + bs.length)).1, (s.fetchBytes n (k + bs.length)).2) := by
  induction bs generalizing k with
  | nil => simp
  | cons b bs ih =>
    have hb : s.fetchByte k = .ok b := h 0 b rfl
    have hrest := ih (k := k + 1) fun j x hx => by
      rw [Nat.add_assoc, Nat.add_comm 1]
      exact h (j + 1) x hx
    have hlen : (b :: bs).length + n = bs.length + n + 1 := by simp; omega
    have hk : k + (b :: bs).length = k + 1 + bs.length := by simp; omega
    rw [hlen, hk, State.fetchBytes, hb, hrest]
    rfl

/-- Fetching ends at the first byte that cannot be fetched. -/
theorem fetchBytes_of_error {s : State} {bs : List Byte} {n : Nat} {e : Stop} (hn : bs.length < n)
    (h : ∀ (j : Nat) (b : Byte), bs[j]? = some b → s.fetchByte j = .ok b) (he : s.fetchByte bs.length = .error e) :
    s.fetchBytes n 0 = (bs, some e) := by
  obtain ⟨m, rfl⟩ : ∃ m, n = bs.length + (m + 1) := ⟨n - bs.length - 1, by omega⟩
  have hend : s.fetchBytes (m + 1) bs.length = ([], some e) := by simp [State.fetchBytes, he]
  rw [fetchBytes_of_fetched _ (by simpa using h), Nat.zero_add, hend, List.append_nil]

/-- Where every byte asked for can be fetched there is no stop. -/
theorem fetchBytes_of_all {s : State} {bs : List Byte} (h : ∀ (j : Nat) (b : Byte), bs[j]? = some b → s.fetchByte j = .ok b) :
    s.fetchBytes bs.length 0 = (bs, none) := by
  simpa [State.fetchBytes] using fetchBytes_of_fetched (s := s) (k := 0) 0 (by simpa using h)

/-- Bytes that end inside an instruction stop as the fetch did, or are too many. -/
theorem fetchInstr_of_truncated {s : State} {bs : List Byte} {e : Option Stop} (hf : s.fetchBytes 15 0 = (bs, e))
    (hd : decode s.codeSize bs = .error .truncated) : s.fetchInstr = .error (e.getD (.refuse .tooLong)) := by
  simp [State.fetchInstr, hf, hd]

/-- Settles O10: the fetch gives exactly the bytes that the decoder finds too few, and why there are no more. -/
theorem stepFetchStops : Obligations.StepFetchStops := by
  intro s bs hl hb _ hbytes hd
  have hstep : ∀ e, s.fetchBytes 15 0 = (bs, e) → step s = s.stop (e.getD (.refuse .tooLong)) :=
    fun e hf => step_of_fetchInstr_error hl hb (fetchInstr_of_truncated hf hd)
  exact ⟨fun e hlen he => hstep (some e) (fetchBytes_of_error hlen hbytes he),
    fun hlen => hstep none (hlen ▸ fetchBytes_of_all hbytes)⟩

end Sys2Proof.Machine
end

section
/-! PROOF. What the decoder answers is an encoding, what it refuses, and the tables of sizes and register numbers. -/

namespace Sys2Proof

/-- Settles O1: the inverse law, for every code size and whatever follows. -/
theorem decodeEncode : Obligations.DecodeEncode := fun _ _ rest h => decode_encode h rest

/-! ## Fields and little-endian values read (30_encoding.md R102, R103, R106; 20_memory.md R63) -/

/-- A sequence of the decoder that answers has read a value, and answers on what is left. -/
theorem decode_bind_ok {α γ β : Type} {x : DecodeM (α × γ)} {f : α × γ → DecodeM β} {b : β} (h : (x >>= f) = .ok b) :
    ∃ v left, x = .ok (v, left) ∧ f (v, left) = .ok b := by
  rcases x with e | ⟨v, left⟩
  · cases h
  · exact ⟨v, left, rfl, h⟩

/-- A byte is made of its three fields. -/
theorem byteOf_bits (b : Byte) : byteOf (bits b 6 2) (bits b 3 3) (bits b 0 3) = b := by
  revert b; decide

/-- An opcode byte is made of its two fields. -/
theorem plusReg_bits (b : Byte) : plusReg (bits b 3 5) (bits b 0 3) = b := by
  revert b; decide

/-- The lowest byte of a little-endian value. -/
theorem extract_append_low {n : Nat} (x : BitVec n) (a : Byte) : (x ++ a).extractLsb' 0 8 = a := BitVec.extractLsb'_append_eq_right

/-- The bytes above the lowest. -/
theorem extract_append_high {n : Nat} (x : BitVec n) (a : Byte) (k : Nat) : (x ++ a).extractLsb' (k + 8) 8 = x.extractLsb' k 8 := by
  rw [BitVec.extractLsb'_append_eq_of_le (by omega), Nat.add_sub_cancel]

theorem bytes16_append (a b : Byte) : bytes16 (b ++ a) = [a, b] := by
  simp only [bytes16, List.cons.injEq, and_true]
  refine ⟨?_, ?_⟩
  all_goals repeat refine (extract_append_high _ _ _).trans ?_
  all_goals simp [extract_append_low]

theorem bytes32_append (a b c d : Byte) : bytes32 (d ++ c ++ b ++ a) = [a, b, c, d] := by
  simp only [bytes32, List.cons.injEq, and_true]
  refine ⟨?_, ?_, ?_, ?_⟩
  all_goals repeat refine (extract_append_high _ _ _).trans ?_
  all_goals simp [extract_append_low]

theorem bytes64_append (a b c d e f g h : Byte) :
    bytes64 (h ++ g ++ f ++ e ++ d ++ c ++ b ++ a) = [a, b, c, d, e, f, g, h] := by
  simp only [bytes64, List.cons.injEq, and_true]
  refine ⟨?_, ?_, ?_, ?_, ?_, ?_, ?_, ?_⟩
  all_goals repeat refine (extract_append_high _ _ _).trans ?_
  all_goals simp [extract_append_low]

section
variable {bs rest : List Byte}

theorem take8_ok {b : Byte} (h : take8 bs = .ok (b, rest)) : bs = b :: rest := by
  cases bs <;> simp_all [take8]

theorem take16_ok {v : BitVec 16} (h : take16 bs = .ok (v, rest)) : bs = bytes16 v ++ rest := by
  unfold take16 at h
  split at h
  · cases h; rw [bytes16_append]; rfl
  · cases h

theorem take32_ok {v : BitVec 32} (h : take32 bs = .ok (v, rest)) : bs = bytes32 v ++ rest := by
  unfold take32 at h
  split at h
  · cases h; rw [bytes32_append]; rfl
  · cases h

theorem take64_ok {v : BitVec 64} (h : take64 bs = .ok (v, rest)) : bs = bytes64 v ++ rest := by
  unfold take64 at h
  split at h
  · cases h; rw [bytes64_append]; rfl
  · cases h

/-! ## Operands read (30_encoding.md R109 to R111, R115) -/

/-- Every mod field but 3 is that of a displacement. -/
theorem takeDisp16_ok {mod : BitVec 2} {d : Disp16} (hmod : mod ≠ 3) (h : takeDisp16 mod bs = .ok (d, rest)) :
    d.encode.1 = mod ∧ bs = d.encode.2 ++ rest := by
  unfold takeDisp16 at h
  split_ifs at h with h1 h2
  · obtain ⟨v, left, hv, h⟩ := decode_bind_ok h
    cases h
    exact ⟨h1.symm, take8_ok hv⟩
  · obtain ⟨v, left, hv, h⟩ := decode_bind_ok h
    cases h
    exact ⟨h2.symm, take16_ok hv⟩
  · cases h
    refine ⟨?_, rfl⟩
    revert mod; decide

@[inherit_doc takeDisp16_ok]
theorem takeDisp32_ok {mod : BitVec 2} {d : Disp32} (hmod : mod ≠ 3) (h : takeDisp32 mod bs = .ok (d, rest)) :
    d.encode.1 = mod ∧ bs = d.encode.2 ++ rest := by
  unfold takeDisp32 at h
  split_ifs at h with h1 h2
  · obtain ⟨v, left, hv, h⟩ := decode_bind_ok h
    cases h
    exact ⟨h1.symm, take8_ok hv⟩
  · obtain ⟨v, left, hv, h⟩ := decode_bind_ok h
    cases h
    exact ⟨h2.symm, take32_ok hv⟩
  · cases h
    refine ⟨?_, rfl⟩
    revert mod; decide

/-- A 16-bit memory form read is well formed, and its encoding is the ModR/M byte and the bytes read. -/
theorem takeMem16_ok {mod : BitVec 2} {n : BitVec 3} {m : MemForm} (g : BitVec 3) (hmod : mod ≠ 3)
    (h : takeMem16 mod n bs = .ok (m, rest)) : m.wf .b16 = true ∧ byteOf mod g n :: bs = (Rm.mem m).encode g ++ rest := by
  unfold takeMem16 at h
  split_ifs at h with habs
  · obtain ⟨rfl, rfl⟩ := habs
    obtain ⟨v, left, hv, h⟩ := decode_bind_ok h
    cases h
    exact ⟨rfl, congrArg _ (take16_ok hv)⟩
  · obtain ⟨d, left, hd, h⟩ := decode_bind_ok h
    cases h
    obtain ⟨rfl, rfl⟩ := takeDisp16_ok hmod hd
    exact ⟨by grind [MemForm.wf, disp16_mod_eq_zero_iff], rfl⟩

/-- A 32- or 64-bit memory form read is well formed, and its encoding is the ModR/M byte and the bytes read. -/
theorem takeMem32_ok {a : Width} {mod : BitVec 2} {n : BitVec 3} {m : MemForm} (g : BitVec 3) (ha : a ≠ .b16) (hmod : mod ≠ 3)
    (h : takeMem32 mod n bs = .ok (m, rest)) : m.wf a = true ∧ byteOf mod g n :: bs = (Rm.mem m).encode g ++ rest := by
  unfold takeMem32 at h
  split_ifs at h with hsib hdisp
  · subst hsib
    obtain ⟨sib, left, hs, h⟩ := decode_bind_ok h
    rw [take8_ok hs]
    dsimp only at h
    split_ifs at h with hbase
    · obtain ⟨hm, hb⟩ := hbase
      obtain ⟨v, left, hv, h⟩ := decode_bind_ok h
      cases h
      refine ⟨by simp [MemForm.wf, ha], ?_⟩
      rw [Rm.encode, ← hb, byteOf_bits, take32_ok hv, hm]
      rfl
    · obtain ⟨d, left, hd, h⟩ := decode_bind_ok h
      cases h
      obtain ⟨rfl, rfl⟩ := takeDisp32_ok hmod hd
      exact ⟨by grind [MemForm.wf, disp32_mod_eq_zero_iff], by rw [Rm.encode, byteOf_bits]; rfl⟩
  · obtain ⟨rfl, rfl⟩ := hdisp
    obtain ⟨v, left, hv, h⟩ := decode_bind_ok h
    cases h
    exact ⟨by simp [MemForm.wf, ha], congrArg _ (take32_ok hv)⟩
  · obtain ⟨d, left, hd, h⟩ := decode_bind_ok h
    cases h
    obtain ⟨rfl, rfl⟩ := takeDisp32_ok hmod hd
    exact ⟨by grind [MemForm.wf, disp32_mod_eq_zero_iff], rfl⟩

/-- An r/m operand read is well formed, and the bytes taken are its encoding with the reg field. -/
theorem takeModRm_ok {a : Width} {g : BitVec 3} {rm : Rm} (h : takeModRm a bs = .ok (g, rm, rest)) :
    rm.wf a = true ∧ bs = rm.encode g ++ rest := by
  unfold takeModRm at h
  obtain ⟨m, left, hm, h⟩ := decode_bind_ok h
  rw [take8_ok hm]
  dsimp only at h
  split_ifs at h with hreg ha
  · cases h
    exact ⟨rfl, by rw [Rm.encode, ← hreg, byteOf_bits]; rfl⟩
  · obtain ⟨f, left, hf, h⟩ := decode_bind_ok h
    cases h
    have hread := takeMem16_ok (bits m 3 3) hreg hf
    rwa [byteOf_bits, ← ha] at hread
  · obtain ⟨f, left, hf, h⟩ := decode_bind_ok h
    cases h
    have hread := takeMem32_ok (bits m 3 3) ha hreg hf
    rwa [byteOf_bits] at hread

theorem takeModRm0_ok {a : Width} {rm : Rm} (h : takeModRm0 a bs = .ok (rm, rest)) :
    rm.wf a = true ∧ bs = rm.encode 0 ++ rest := by
  unfold takeModRm0 at h
  obtain ⟨g, ⟨rm', left⟩, hm, h⟩ := decode_bind_ok h
  dsimp only at h
  split_ifs at h with hg
  cases h
  exact hg ▸ takeModRm_ok hm

theorem takeMoffs_ok {a : Width} {o : Moffs} (ha : a ≠ .b8) (h : takeMoffs a bs = .ok (o, rest)) :
    o.wf a = true ∧ bs = o.encode ++ rest := by
  unfold takeMoffs at h
  split at h
  all_goals
    obtain ⟨v, left, hv, h⟩ := decode_bind_ok h
    cases h
  · exact ⟨rfl, take64_ok hv⟩
  · exact ⟨rfl, take32_ok hv⟩
  · exact ⟨by cases a <;> simp_all [Moffs.wf], take16_ok hv⟩

end

/-! ## The row of an opcode (30_encoding.md R116, R117, R119) -/

theorem addressSize_ne_b8 (c : CodeSize) (p : Prefixes) : addressSize c p ≠ .b8 := by
  cases c <;> simp only [addressSize] <;> split <;> simp

theorem operandSize_cases (c : CodeSize) (p : Prefixes) :
    operandSize c p = .b16 ∨ operandSize c p = .b32 ∨ operandSize c p = .b64 := by
  cases c <;> simp only [operandSize] <;> grind

/-- What an answer of the decoder says after the prefixes `p` and the opcode byte `op`: the row is one that these prefixes and the code size
select, and the bytes taken are its operands as the encoder writes them. -/
structure RowRead (c : CodeSize) (p : Prefixes) (op : Byte) (bs : List Byte) (i : Instr) (rest : List Byte) : Prop where
  prefixes : i.prefixes = p
  row : i.rowWf c = true
  bytes : ∃ operands, encode i = p.encode ++ op :: operands ∧ bs = operands ++ rest

section
variable {c : CodeSize} {p : Prefixes} {op : Byte} {bs rest : List Byte} {i : Instr}

theorem modRmRow_read {row : BitVec 3 → Rm → Instr}
    (hrow : ∀ g rm, rm.wf (addressSize c p) = true →
      (row g rm).prefixes = p ∧ (row g rm).rowWf c = true ∧ encode (row g rm) = p.encode ++ op :: rm.encode g)
    (h : modRmRow (addressSize c p) bs row = .ok (i, rest)) : RowRead c p op bs i rest := by
  obtain ⟨g, ⟨rm, left⟩, hm, h⟩ := decode_bind_ok h
  cases h
  obtain ⟨hwf, hbs⟩ := takeModRm_ok hm
  obtain ⟨hp, hw, he⟩ := hrow g rm hwf
  exact ⟨hp, hw, _, he, hbs⟩

theorem moffsRow_read {row : Moffs → Instr}
    (hrow : ∀ o, o.wf (addressSize c p) = true →
      (row o).prefixes = p ∧ (row o).rowWf c = true ∧ encode (row o) = p.encode ++ op :: o.encode)
    (h : moffsRow (addressSize c p) bs row = .ok (i, rest)) : RowRead c p op bs i rest := by
  obtain ⟨o, left, ho, h⟩ := decode_bind_ok h
  cases h
  obtain ⟨hwf, hbs⟩ := takeMoffs_ok (addressSize_ne_b8 c p) ho
  obtain ⟨hp, hw, he⟩ := hrow o hwf
  exact ⟨hp, hw, _, he, hbs⟩

/-- Opcodes B8 to BF. -/
theorem movRegImm_read {r : BitVec 3} (h : movRegImm (operandSize c p) p r bs = .ok (i, rest)) :
    RowRead c p (plusReg 0x17 r) bs i rest := by
  rcases operandSize_cases c p with hw | hw | hw
  all_goals
    rw [hw] at h
    obtain ⟨v, left, hv, h⟩ := decode_bind_ok h
    cases h
  · exact ⟨rfl, by simp [Instr.rowWf, hw], _, rfl, take16_ok hv⟩
  · exact ⟨rfl, by simp [Instr.rowWf, hw], _, rfl, take32_ok hv⟩
  · exact ⟨rfl, by simp [Instr.rowWf, hw], _, rfl, take64_ok hv⟩

/-- Opcode C7. -/
theorem movRmImm_read (h : movRmImm (addressSize c p) (operandSize c p) p bs = .ok (i, rest)) : RowRead c p 0xC7 bs i rest := by
  obtain ⟨rm, left, hm, h⟩ := decode_bind_ok h
  obtain ⟨hwf, hbs⟩ := takeModRm0_ok hm
  rcases operandSize_cases c p with hw | hw | hw
  all_goals
    dsimp only at h
    rw [hw] at h
    obtain ⟨v, left, hv, h⟩ := decode_bind_ok h
    cases h
  · exact ⟨rfl, by simp [Instr.rowWf, hw, hwf], _, rfl, by rw [hbs, take16_ok hv, List.append_assoc]⟩
  · exact ⟨rfl, by simp [Instr.rowWf, hw, hwf], _, rfl, by rw [hbs, take32_ok hv, List.append_assoc]⟩
  · exact ⟨rfl, by simp [Instr.rowWf, hw, hwf], _, rfl, by rw [hbs, take32_ok hv, List.append_assoc]⟩

/-- The second opcode bytes 20 to 23. -/
theorem escape_opcode_iff {b : Byte} : bits b 2 6 = 8 ↔ b = 0x20 ∨ b = 0x21 ∨ b = 0x22 ∨ b = 0x23 := by
  revert b; decide

/-- A row of a two-byte opcode is read with its ModR/M byte. -/
theorem RowRead.escape {b m : Byte} (hp : i.prefixes = p) (hw : i.rowWf c = true)
    (he : encode i = p.encode ++ [0x0F, b, byteOf (bits m 6 2) (bits m 3 3) (bits m 0 3)]) :
    RowRead c p 0x0F (b :: m :: rest) i rest :=
  ⟨hp, hw, _, he, by rw [byteOf_bits]; rfl⟩

/-- The two-byte opcodes. -/
theorem decodeEscape_read (h : decodeEscape c p bs = .ok (i, rest)) : RowRead c p 0x0F bs i rest := by
  obtain ⟨b, left, hb, h⟩ := decode_bind_ok h
  dsimp only at h
  split at h
  next hop =>
    obtain ⟨m, left, hm, h⟩ := decode_bind_ok h
    rw [take8_ok hb, take8_ok hm]
    cases h
    rcases escape_opcode_iff.1 hop with rfl | rfl | rfl | rfl
    all_goals simp only [BitVec.reduceEq, reduceIte]
    case inl | inr.inr.inl =>
      split_ifs with hc hcr8
      · obtain ⟨hr, hreg⟩ : p.rexR = true ∧ bits m 3 3 = 0 := by simpa using hcr8
        exact .escape rfl (by simp [Instr.rowWf, hc, hr]) (by rw [encode, hreg])
      · exact .escape rfl (by rw [Instr.rowWf, hc, Bool.eq_false_iff.2 hcr8]; rfl) rfl
      · exact .escape rfl (by simp [Instr.rowWf, hc]) rfl
    case inr.inl | inr.inr.inr =>
      split_ifs with hc
      · exact .escape rfl (by simp [Instr.rowWf, hc]) rfl
      · exact .escape rfl (by simp [Instr.rowWf, hc]) rfl
  next => cases h

/-- The opcode bytes of R116 and R117 without a register in their low bits. -/
def plainOpcodes : List Byte := [0x88, 0x8A, 0x89, 0x8B, 0x8C, 0x8E, 0xA0, 0xA2, 0xA1, 0xA3, 0xC6, 0xC7, 0x0F]

/-- An opcode of no row is refused. -/
theorem decodeOpcode_unlisted (h : op ∉ plainOpcodes) (h16 : bits op 3 5 ≠ 0x16) (h17 : bits op 3 5 ≠ 0x17) :
    decodeOpcode c p op bs = .error .notInSpec := by
  simp [plainOpcodes] at h h16 h17
  simp [decodeOpcode, h, h16, h17]

/-- Opcodes B0 to B7. -/
theorem decodeOpcode_plusReg_byte_read {r : BitVec 3} (h : decodeOpcode c p (plusReg 0x16 r) bs = .ok (i, rest)) :
    RowRead c p (plusReg 0x16 r) bs i rest := by
  simp (disch := decide) [decodeOpcode, plusReg_ne] at h
  obtain ⟨v, left, hv, h⟩ := decode_bind_ok h
  cases h
  cases hrex : p.rex
  · exact ⟨rfl, by simp [Instr.rowWf, hrex], _, rfl, take8_ok hv⟩
  · exact ⟨rfl, by simp [Instr.rowWf, hrex], _, rfl, take8_ok hv⟩

/-- Opcodes B8 to BF. -/
theorem decodeOpcode_plusReg_full (r : BitVec 3) : decodeOpcode c p (plusReg 0x17 r) bs = movRegImm (operandSize c p) p r bs := by
  simp (disch := decide) [decodeOpcode, plusReg_ne]

/-- The decoder answers a row of a plain opcode byte. -/
theorem decodeOpcode_plain_read (hop : op ∈ plainOpcodes) (h : decodeOpcode c p op bs = .ok (i, rest)) : RowRead c p op bs i rest := by
  have hgroup : (op = 0x88 ∨ op = 0x8A) ∨ (op = 0x89 ∨ op = 0x8B ∨ op = 0x8C) ∨ op = 0x8E ∨ (op = 0xA0 ∨ op = 0xA2) ∨
      (op = 0xA1 ∨ op = 0xA3) ∨ op = 0xC6 ∨ op = 0xC7 ∨ op = 0x0F := by
    simpa [plainOpcodes, or_assoc] using hop
  rcases hgroup with hop | hop | rfl | hop | hop | rfl | rfl | rfl
  · rcases hop with rfl | rfl
    all_goals
      simp [decodeOpcode] at h
      refine modRmRow_read (fun g rm hwf => ?_) h
      cases hrex : p.rex <;> simp [Instr.prefixes, Instr.rowWf, encode, hwf, hrex]
  · rcases hop with rfl | rfl | rfl
    all_goals
      simp [decodeOpcode] at h
      refine modRmRow_read (fun g rm hwf => ?_) h
      rcases operandSize_cases c p with hw | hw | hw <;> simp [bySize, Instr.prefixes, Instr.rowWf, encode, hwf, hw]
  · simp [decodeOpcode] at h
    refine modRmRow_read (fun g rm hwf => ?_) h
    cases hw : p.rexW <;> simp [Instr.prefixes, Instr.rowWf, encode, hwf, hw]
  · rcases hop with rfl | rfl
    all_goals
      simp [decodeOpcode] at h
      refine moffsRow_read (fun o hwf => ?_) h
      cases hw : p.rexW <;> simp [Instr.prefixes, Instr.rowWf, encode, hwf, hw]
  · rcases hop with rfl | rfl
    all_goals
      simp [decodeOpcode] at h
      refine moffsRow_read (fun o hwf => ?_) h
      rcases operandSize_cases c p with hw | hw | hw <;> simp [bySize, Instr.prefixes, Instr.rowWf, encode, hwf, hw]
  · simp [decodeOpcode, opcode_fields] at h
    obtain ⟨rm, left, hm, h⟩ := decode_bind_ok h
    obtain ⟨v, left, hv, h⟩ := decode_bind_ok h
    cases h
    obtain ⟨hwf, hbs⟩ := takeModRm0_ok hm
    replace hbs := hbs.trans (congrArg _ (take8_ok hv))
    cases hrex : p.rex
    · exact ⟨rfl, by simp [Instr.rowWf, hwf, hrex], _, rfl, by simp [hbs]⟩
    · exact ⟨rfl, by simp [Instr.rowWf, hwf, hrex], _, rfl, by simp [hbs]⟩
  · simp [decodeOpcode, opcode_fields] at h
    exact movRmImm_read h
  · simp [decodeOpcode, opcode_fields] at h
    exact decodeEscape_read h

/-- The decoder answers a row of the opcode byte, with its operands. -/
theorem decodeOpcode_read (h : decodeOpcode c p op bs = .ok (i, rest)) : RowRead c p op bs i rest := by
  by_cases hop : op ∈ plainOpcodes
  · exact decodeOpcode_plain_read hop h
  by_cases h16 : bits op 3 5 = 0x16
  · rw [← plusReg_bits op, h16] at h ⊢
    exact decodeOpcode_plusReg_byte_read h
  by_cases h17 : bits op 3 5 = 0x17
  · rw [← plusReg_bits op, h17] at h ⊢
    exact movRegImm_read (decodeOpcode_plusReg_full _ ▸ h)
  · cases (decodeOpcode_unlisted hop h16 h17).symm.trans h

/-! ## Prefixes read (30_encoding.md R90, R93, R99) -/

/-- A byte that is read as REX is the byte that encodes what is read. -/
theorem rexByte_eq_some {b : Byte} {x : Rex} (h : rexByte b = some x) : b = x.byte := by
  have hbyte : ∀ b : Byte, bits b 4 4 = 4 →
      b = Rex.byte ⟨b.getLsbD 3, b.getLsbD 2, b.getLsbD 1, b.getLsbD 0⟩ := by decide
  unfold rexByte at h
  split at h
  next hb =>
    cases h
    exact hbyte b hb
  next => cases h

/-- A segment override has its own byte. -/
theorem legacyByte_eq_seg {b : Byte} {g : SegReg} (h : legacyByte b = some (.seg g)) : b = segByte g := by
  revert b; cases g <;> decide

/-- LOCK, 66 and 67 have one byte each. -/
theorem legacyByte_eq_some (b : Byte) :
    (legacyByte b = some .lock → b = 0xF0) ∧ (legacyByte b = some .opsize → b = 0x66) ∧
      (legacyByte b = some .addrsize → b = 0x67) := by
  revert b; decide

/-- A legacy byte that is taken joins the bytes of the prefixes. -/
theorem addLegacy_perm {b : Byte} {l : LegacyByte} {q : Prefixes} (hb : legacyByte b = some l) (hq : addLegacy p l = some q) :
    q.rex = p.rex ∧ (b :: p.encode).Perm q.encode := by
  rw [prefixes_encode_eq, prefixes_encode_eq, List.perm_iff_count]
  cases l with
  | lock =>
    obtain rfl := (legacyByte_eq_some b).1 hb
    simp only [addLegacy] at hq
    split_ifs at hq with hp
    cases hq
    simp [hp]
  | rep => cases hq
  | seg g =>
    obtain rfl := legacyByte_eq_seg hb
    simp only [addLegacy] at hq
    split_ifs at hq with hp
    cases hq
    have hnone : p.seg = none := by simpa using hp
    simp [hnone, List.count_cons]
    omega
  | opsize =>
    obtain rfl := (legacyByte_eq_some b).2.1 hb
    simp only [addLegacy] at hq
    split_ifs at hq with hp
    cases hq
    simp [hp, List.count_cons]
    omega
  | addrsize =>
    obtain rfl := (legacyByte_eq_some b).2.2 hb
    simp only [addLegacy] at hq
    split_ifs at hq with hp
    cases hq
    simp [hp, List.count_cons]
    omega

/-- A REX byte comes last. -/
theorem encode_rex (h : p.rex = none) (x : Rex) : Prefixes.encode { p with rex := some x } = p.encode ++ [x.byte] := by
  simp [prefixes_encode_eq, h]

/-- After REX the opcode follows (R99). -/
theorem decodeAfterRex_ok (h : decodeAfterRex c p bs = .ok (i, rest)) :
    ∃ op tail, bs = op :: tail ∧ decodeOpcode c p op tail = .ok (i, rest) := by
  unfold decodeAfterRex at h
  split at h
  next => cases h
  next op tail =>
    split at h
    next => cases h
    next => exact ⟨op, tail, rfl, h⟩

/-- The decoder takes prefixes in any order, then an opcode with its operands. -/
theorem decodeFrom_ok (hp : p.rex = none) (h : decodeFrom c p bs = .ok (i, rest)) :
    ∃ pre q op tail, bs = pre ++ op :: tail ∧ q.wf c = true ∧ (pre ++ p.encode).Perm q.encode ∧
      decodeOpcode c q op tail = .ok (i, rest) := by
  induction bs generalizing p with
  | nil => cases h
  | cons b bs ih =>
    simp only [decodeFrom] at h
    split at h
    next l hl =>
      split at h
      next p' hp' =>
        obtain ⟨hrex, hperm⟩ := addLegacy_perm hl hp'
        obtain ⟨pre, q, op, tail, rfl, hwf, hq, hop⟩ := ih (hrex.trans hp) h
        refine ⟨b :: pre, q, op, tail, rfl, hwf, ?_, hop⟩
        exact (List.perm_middle.symm.trans (hperm.append_left pre)).trans hq
      next => cases h
    next hl =>
      split at h
      next x hx =>
        obtain rfl := rexByte_eq_some hx
        obtain ⟨op, tail, rfl, hop⟩ := decodeAfterRex_ok h
        exact ⟨[x.byte], _, op, tail, rfl, rfl, by rw [encode_rex hp]; exact List.perm_append_comm, hop⟩
      next => exact ⟨[], p, b, bs, rfl, by simp [Prefixes.wf, hp], .refl _, h⟩

end

/-- Settles O2: the prefixes taken are those of the row read, in some order, and the encoder writes what follows them. -/
theorem decodedIsWellFormed : Obligations.DecodedIsWellFormed := by
  intro c bs i rest h
  obtain ⟨pre, q, op, tail, rfl, hwf, hpre, hop⟩ := decodeFrom_ok rfl h
  obtain ⟨rfl, hrow, operands, henc, rfl⟩ := decodeOpcode_read hop
  replace hpre : pre.Perm i.prefixes.encode := by simpa [Prefixes.encode, Prefixes.empty] using hpre
  have hdrop : (encode i).drop i.prefixes.length = op :: operands := by
    rw [henc, ← Laws.prefixes_encode_length, List.drop_left]
  refine ⟨hwf, hrow, pre, ?_, hpre, ?_⟩
  · rw [hdrop, List.append_assoc, List.cons_append]
  · rw [hdrop, hpre.length_eq, ← List.length_append, ← henc, Machine.encode_length]

/-! ## What the decoder refuses (30_encoding.md R93, R98, R99, R119, R121, R130) -/

section
variable {c : CodeSize} {p : Prefixes} {op : Byte} {bs rest : List Byte}

/-- The opcode bytes of no row, by their numbers (R119). -/
theorem not_opcode {op : Byte} : op.toNat ∉ [0x0F, 0x88, 0x89, 0x8A, 0x8B, 0x8C, 0x8E, 0xA0, 0xA1, 0xA2, 0xA3, 0xC6, 0xC7] →
    ¬ (0xB0 ≤ op.toNat ∧ op.toNat ≤ 0xBF) → op ∉ plainOpcodes ∧ bits op 3 5 ≠ 0x16 ∧ bits op 3 5 ≠ 0x17 := by
  revert op; decide

/-- The escape with another second byte than 20 to 23 is refused. -/
theorem decodeEscape_unlisted {b : Byte} (h : ¬ (0x20 ≤ b.toNat ∧ b.toNat ≤ 0x23)) :
    decodeEscape c p (b :: bs) = .error .notInSpec := by
  have hb : bits b 2 6 ≠ 8 := by revert b; decide
  simp at hb
  simp [decodeEscape, hb]

theorem takeModRm0_refused {a : Width} {g : BitVec 3} {rm : Rm} (h : takeModRm a bs = .ok (g, rm, rest)) (hg : g ≠ 0) :
    takeModRm0 a bs = .error .notInSpec := by
  simp at hg
  simp [takeModRm0, h, hg]

/-- C6 and C7 with a reg field other than 0 are refused (R130). -/
theorem decodeOpcode_immGroup_refused {g : BitVec 3} {rm : Rm} (hop : op = 0xC6 ∨ op = 0xC7)
    (h : takeModRm (addressSize c p) bs = .ok (g, rm, rest)) (hg : g ≠ 0) : decodeOpcode c p op bs = .error .notInSpec := by
  have hm := takeModRm0_refused h hg
  rcases hop with rfl | rfl
  · simp [decodeOpcode, opcode_fields, hm]
    rfl
  · simp [decodeOpcode, opcode_fields, movRmImm, hm]
    rfl

/-- A legacy byte that cannot be added is refused by name (R93, R98). -/
theorem decodeFrom_legacy_refused {b : Byte} {l : LegacyByte} (hb : legacyByte b = some l) (hp : addLegacy p l = none) :
    decodeFrom c p (b :: bs) = .error .prefixNotModelled := by
  simp [decodeFrom, hb, hp]

/-- After the prefixes and REX the opcode decides. -/
theorem decodeFrom_rex_opcode (p : Prefixes) (x : Rex) (hl : legacyByte op = none) (hr : rexByte op = none) :
    decodeFrom .c64 p (x.byte :: op :: bs) = decodeOpcode .c64 { p with rex := some x } op bs := by
  rw [decodeFrom_rex, decodeAfterRex_opcode _ _ hl hr]

end

/-- Settles O6: each refusal is that of the opcode byte after the prefixes, with REX or without. -/
theorem decodeRefusals : Obligations.DecodeRefusals := by
  have himm : ∀ op : Byte, op = 0xC6 ∨ op = 0xC7 → legacyByte op = none ∧ rexByte op = none := by decide
  refine ⟨fun c p b bs hl hr hlist hrange => ?_, fun c p b bs hb => ?_, fun c p op bs reg rm rest hop hm hreg => ?_,
    fun p x b bs hl hr hlist hrange => ?_, fun p x b bs hb => ?_, fun p x op bs reg rm rest hop hm hreg => ?_⟩
  · obtain ⟨hplain, h16, h17⟩ := not_opcode hlist hrange
    rw [decodeFrom_opcode p bs hl hr, decodeOpcode_unlisted hplain h16 h17]
  · rw [decodeFrom_opcode p (b :: bs) rfl fun _ => rfl]
    exact decodeEscape_unlisted hb
  · obtain ⟨hl, hr⟩ := himm op hop
    rw [decodeFrom_opcode p bs hl fun _ => hr, decodeOpcode_immGroup_refused hop hm hreg]
  · obtain ⟨hplain, h16, h17⟩ := not_opcode hlist hrange
    rw [decodeFrom_rex_opcode p x hl hr, decodeOpcode_unlisted hplain h16 h17]
  · rw [decodeFrom_rex_opcode p x rfl rfl]
    exact decodeEscape_unlisted hb
  · obtain ⟨hl, hr⟩ := himm op hop
    rw [decodeFrom_rex_opcode p x hl hr]
    exact decodeOpcode_immGroup_refused hop hm hreg

/-- Settles O7: none more of its kind can be added to the prefixes, and after REX only an opcode is taken. -/
theorem refusedPrefixes : Obligations.RefusedPrefixes := by
  intro c p bs
  refine ⟨fun b hb => ?_, fun h => ?_, fun h => ?_, fun h => ?_, fun h g => ?_, fun x b hb => ?_⟩
  · have hrep : legacyByte b = some .rep := by rcases hb with rfl | rfl <;> rfl
    exact decodeFrom_legacy_refused hrep rfl
  · exact decodeFrom_legacy_refused (l := .lock) rfl (if_pos h)
  · exact decodeFrom_legacy_refused (l := .opsize) rfl (if_pos h)
  · exact decodeFrom_legacy_refused (l := .addrsize) rfl (if_pos h)
  · exact decodeFrom_legacy_refused (legacyByte_segByte g) (if_pos h)
  · rw [decodeFrom_rex]
    exact if_pos hb

/-- Settles O5: each word is decoded by running the decoder on it. -/
theorem decodeSpecWords : Obligations.DecodeSpecWords :=
  ⟨rfl, rfl, rfl, rfl, rfl, rfl, rfl, rfl, rfl, rfl, rfl, rfl⟩

/-! ## Sizes and register numbers (30_encoding.md R100, R101, R104) -/

/-- The extension bit counts 8. -/
theorem extendReg_toNat (b : Bool) (f : BitVec 3) : (extendReg b f).toNat = 8 * b.toNat + f.toNat := by
  revert b f; decide

/-- Settles O3: the tables row by row, and one sum for the three register fields. -/
theorem sizeTables : Obligations.SizeTables := by
  intro p
  refine ⟨?_, ?_, rfl, rfl, rfl, rfl, rfl, fun f h => ?_, fun f x h => ?_⟩
  · rintro ⟨x, hx, hw⟩
    simp [operandSize, Prefixes.rexW, hx, hw]
  · intro h
    have hw : p.rexW = false := by
      unfold Prefixes.rexW
      split
      next x hx => exact h x hx
      next => rfl
    simp [operandSize, hw]
  · simp [Machine.regField, Machine.indexField, Machine.rmField, extendReg_toNat, Prefixes.rexR, Prefixes.rexX, Prefixes.rexB, h]
  · simp [Machine.regField, Machine.indexField, Machine.rmField, extendReg_toNat, Prefixes.rexR, Prefixes.rexX, Prefixes.rexB, h]

end Sys2Proof
end

section
/-! PROOF. The checks before the operands: LOCK, and the segment registers that exist; the effective address of each memory form. -/

namespace Sys2Proof.Machine

/-! ## LOCK (30_encoding.md R95, R131; 42_mov_cr.md R234; 43_mov_dr.md R260) -/

section
variable {i : Instr} {s : State} {p : Prefixes}

/-- With LOCK an instruction whose first check is LOCK's raises #UD, whatever would follow. -/
theorem finish_of_lock (h : p.lock = true) (f : Unit → Res State) : finish i s (guardLock p >>= f) = .fault (s.raise .ud) := by
  rw [guardLock_error_iff.2 ⟨h, rfl⟩]
  rfl

theorem movSregRm_of_lock (h : p.lock = true) (f : BitVec 3) (rm : Rm) : movSregRm i p f rm s = .fault (s.raise .ud) := by
  have hlock : loadSreg i p f rm s = .error (.exc .ud) := by
    rw [loadSreg, guardLock_error_iff.2 ⟨h, rfl⟩]
    rfl
  rw [movSregRm, hlock]
  rfl

/-- The checks of MOV CR and MOV DR with LOCK: virtual-8086 mode goes first (entry 18). -/
theorem guardV86_guardLock_of_lock {α : Type} (h : p.lock = true) (f : Unit → Res α) :
    (s.guardV86 >>= fun _ => guardLock p >>= f) = .error (.exc (if s.mode = .v86 then .gp 0 else .ud)) := by
  rw [guardLock_error_iff.2 ⟨h, rfl⟩, State.guardV86]
  split <;> rfl

/-- A row of 42_mov_cr.md or 43_mov_dr.md with LOCK stops in its first two checks. -/
theorem finish_of_v86_lock {α : Type} (h : p.lock = true) (f : Unit → Res α) (g : α → Res State) :
    finish i s ((s.guardV86 >>= fun _ => guardLock p >>= f) >>= g) = .fault (s.raise (if s.mode = .v86 then .gp 0 else .ud)) := by
  rw [guardV86_guardLock_of_lock h]
  rfl

end

/-- Settles O21: LOCK is the first check of every row but those of MOV CR and MOV DR, which ask for virtual-8086 mode before it. -/
theorem lockIsUd : Obligations.LockIsUd := by
  intro i s h
  cases i
  case movSregRm16 | movSregRm64 => exact movSregRm_of_lock h _ _
  case movR32Cr | movR64Cr | movR64Cr8 | movCrR32 | movCrR64 | movCr8R64 | movR32Dr | movR64Dr | movDrR32 | movDrR64 =>
    simp only [isCrDr, true_and]
    exact finish_of_v86_lock h _ _
  all_goals exact finish_of_lock h _

/-! ## Segment registers that a row may not name (30_encoding.md R130; 41_mov_sreg.md R184; entry 15) -/

theorem segOfCode_eq_none {f : BitVec 3} (h : ¬ f.toNat < 6) : segOfCode f = none := by
  revert f; decide

/-- What 8E may not load: CS, and the numbers of no segment register. -/
theorem segOfCode_of_not_loadable {f : BitVec 3} (h : ¬ (f.toNat < 6 ∧ f ≠ 1)) : segOfCode f = some .cs ∨ segOfCode f = none := by
  revert f; decide

section
variable {i : Instr} {s : State} {p : Prefixes} {f : BitVec 3}

theorem movRmSreg_of_unusable (hl : p.lock = false) (h : ¬ f.toNat < 6) (w : Width) (rm : Rm) :
    movRmSreg i p w rm f s = .fault (s.raise .ud) := by
  rw [movRmSreg, (guardLock_ok_iff (u := ())).2 hl, ok_bind, sregOf_error_iff.2 ⟨segOfCode_eq_none h, rfl⟩]
  rfl

theorem movSregRm_of_unusable (hl : p.lock = false) (h : ¬ (f.toNat < 6 ∧ f ≠ 1)) (rm : Rm) :
    movSregRm i p f rm s = .fault (s.raise .ud) := by
  have hstop : loadSreg i p f rm s = .error (.exc .ud) := by
    rw [loadSreg, (guardLock_ok_iff (u := ())).2 hl, ok_bind, loadableSreg_error_iff.2 ⟨segOfCode_of_not_loadable h, rfl⟩]
    rfl
  rw [movSregRm, hstop]
  rfl

end

/-- Settles O45: after LOCK the reg field is the next check of the 8C and 8E rows, and no other row has an unusable one. -/
theorem sregUnusable : Obligations.SregUnusable := by
  intro i s hl h
  cases i
  case movRm16Sreg | movRm32Sreg | movRm64Sreg => exact movRmSreg_of_unusable hl (of_decide_eq_false h) _ _
  case movSregRm16 | movSregRm64 => exact movSregRm_of_unusable hl (by simpa [sregUsable] using h) _
  all_goals cases h

/-! ## Effective addresses (30_encoding.md R109 to R113) -/

/-- The low bits of a sign-extended value. -/
theorem setWidth_signExtend {k n : Nat} (b : BitVec k) (hn : n ≤ 64) : (b.signExtend 64).setWidth n = b.signExtend n := by
  ext j hj
  simp [BitVec.getElem_signExtend, show j < 64 by omega]

/-- A scaled index is a product (R111). -/
theorem shiftLeft_eq_mul_pow {n : Nat} (v : BitVec n) (k : Nat) : v <<< k = v * BitVec.ofNat n (2 ^ k) := by
  rw [BitVec.shiftLeft_eq_mul_twoPow, BitVec.eq_of_toNat_eq ((BitVec.toNat_twoPow n k).trans (BitVec.toNat_ofNat _ n).symm)]

/-- A sum truncated to 16 bits is the sum of the low 16 bits. -/
theorem truncTo_b16_add (v w : Quad) : truncTo .b16 (v + w) = (v.setWidth 16 + w.setWidth 16).setWidth 64 := by
  rw [truncTo, BitVec.setWidth_add _ _ (by decide)]

@[inherit_doc truncTo_b16_add]
theorem truncTo_b32_add (v w : Quad) : truncTo .b32 (v + w) = (v.setWidth 32 + w.setWidth 32).setWidth 64 := by
  rw [truncTo, BitVec.setWidth_add _ _ (by decide)]

/-- Truncation keeps the low bits. -/
theorem setWidth_truncTo_b32 (v : Quad) : (truncTo .b32 v).setWidth 32 = v.setWidth 32 := by
  rw [truncTo, BitVec.setWidth_setWidth_of_le _ (by decide), BitVec.setWidth_eq]

/-- The rows of R109 whose default segment is SS. -/
theorem sum16_seg (s : State) (rm : BitVec 3) : (s.sum16 rm).1 = if rm = 2 ∨ rm = 3 ∨ rm = 6 then .ss else .ds := by
  unfold State.sum16
  grind

/-- Settles O33: the segment, the sum and the displacement of a row, each by its own cases. -/
theorem effectiveAddress16 : Obligations.EffectiveAddress16 := by
  intro s p next
  refine ⟨?_, fun d => rfl⟩
  intro rm d bx bp si di sum disp
  have hsum : (s.sum16 rm).2.setWidth 16 = sum := by
    have hrm : rm = 0 ∨ rm = 1 ∨ rm = 2 ∨ rm = 3 ∨ rm = 4 ∨ rm = 5 ∨ rm = 6 ∨ rm = 7 := by revert rm; decide
    rcases hrm with rfl | rfl | rfl | rfl | rfl | rfl | rfl | rfl
    case inl | inr.inl | inr.inr.inl | inr.inr.inr.inl => exact BitVec.setWidth_add _ _ (by decide)
    all_goals rfl
  have hdisp : (disp16Value d).setWidth 16 = disp := by
    cases d with
    | d0 => rfl
    | d8 b => exact setWidth_signExtend b (by decide)
    | d16 b => exact (setWidth_signExtend b (by decide)).trans (BitVec.signExtend_eq b)
  rw [State.effectiveAddress, truncTo_b16_add, hsum, hdisp, sum16_seg]

/-- The index term in 32 bits (R111). -/
theorem indexTerm_b32 (s : State) (p : Prefixes) (scale : BitVec 2) (index : BitVec 3) :
    (s.indexTerm .b32 p scale index).setWidth 32 =
      if indexField p index = 4 then 0 else (s.x (indexField p index)).setWidth 32 * BitVec.ofNat 32 (2 ^ scale.toNat) := by
  unfold State.indexTerm
  split
  · rfl
  · rw [BitVec.setWidth_shiftLeft_of_le (by decide), setWidth_truncTo_b32, shiftLeft_eq_mul_pow]

/-- The index term in 64 bits (R111). -/
theorem indexTerm_b64 (s : State) (p : Prefixes) (scale : BitVec 2) (index : BitVec 3) :
    s.indexTerm .b64 p scale index =
      if indexField p index = 4 then 0 else s.x (indexField p index) * BitVec.ofNat 64 (2 ^ scale.toNat) := by
  unfold State.indexTerm
  rw [← shiftLeft_eq_mul_pow]
  rfl

/-- Settles O34: truncation goes through each sum to its terms. -/
theorem effectiveAddress32 : Obligations.EffectiveAddress32 := by
  intro s p next ha r disp idx
  have hdisp : ∀ d : Disp32, (disp32Value d).setWidth 32 = disp d := by
    intro d
    cases d with
    | d0 => rfl
    | d8 b => exact setWidth_signExtend b (by decide)
    | d32 b => exact (setWidth_signExtend b (by decide)).trans (BitVec.signExtend_eq b)
  have hd : ∀ d : BitVec 32, (d.signExtend 64).setWidth 32 = d := fun d => hdisp (.d32 d)
  refine ⟨fun rm d => ?_, fun d => ?_, fun scale index b d => ?_, fun scale index d => ?_⟩
  · simp only [State.effectiveAddress, ha, truncTo_b32_add, setWidth_truncTo_b32, hdisp, r]
  · simp only [State.effectiveAddress, ha, truncTo_b32_add, hd]
    split <;> rfl
  · simp only [State.effectiveAddress, ha, truncTo_b32_add, BitVec.setWidth_add _ _ (show 32 ≤ 64 by decide), setWidth_truncTo_b32,
      indexTerm_b32, hdisp, r, idx]
  · simp only [State.effectiveAddress, ha, truncTo_b32_add, indexTerm_b32, hd, r, idx]

/-- 64-bit addresses are those of 64-bit mode (R101). -/
theorem long64_of_addressSize {s : State} {p : Prefixes} (h : addressSize s.codeSize p = .b64) : s.mode = .long64 := by
  rw [← codeSize_eq_c64_iff]
  cases hc : s.codeSize with
  | c64 => rfl
  | c16 | c32 => rw [hc] at h; simp only [addressSize] at h; split at h <;> cases h

/-- Settles O35: nothing is truncated, and 64-bit mode makes a displacement alone relative. -/
theorem effectiveAddress64 : Obligations.EffectiveAddress64 := by
  intro s p next ha disp idx
  have hdisp : ∀ d : Disp32, disp32Value d = disp d := fun d => by cases d <;> rfl
  refine ⟨fun rm d => ?_, fun d => ?_, fun scale index b d => ?_, fun scale index d => ?_⟩
  · simp only [State.effectiveAddress, ha, truncTo, hdisp]
  · simp only [State.effectiveAddress, ha, truncTo, long64_of_addressSize ha, if_true]
  · simp only [State.effectiveAddress, ha, truncTo, indexTerm_b64, hdisp, idx]
  · simp only [State.effectiveAddress, ha, truncTo, indexTerm_b64, idx]

end Sys2Proof.Machine
end

section
/-! PROOF. Moves between general registers, memory and immediates: each row is a shared operation, and what that operation writes. -/

namespace Sys2Proof.Machine

/-! ## The rows as the shared operations (40_mov_data.md R140 to R169) -/

/-- Opcodes 88 and 89. -/
theorem exec_movRmRegRows : ∀ row ∈ movRmRegRows, ∀ (p : Prefixes) (rm : Rm) (reg : BitVec 3) (s : State),
    exec (row.2 p rm reg) s = movRmReg (row.2 p rm reg) p row.1 rm reg s := by
  intro row hrow
  fin_cases hrow
  all_goals exact fun _ _ _ _ => rfl

/-- Opcodes 8A and 8B. -/
theorem exec_movRegRmRows : ∀ row ∈ movRegRmRows, ∀ (p : Prefixes) (reg : BitVec 3) (rm : Rm) (s : State),
    exec (row.2 p reg rm) s = movRegRm (row.2 p reg rm) p row.1 reg rm s := by
  intro row hrow
  fin_cases hrow
  all_goals exact fun _ _ _ _ => rfl

/-- Opcodes A0 and A1. -/
theorem exec_movAccMoffsRows : ∀ row ∈ movAccMoffsRows, ∀ (p : Prefixes) (o : Moffs) (s : State),
    exec (row.2 p o) s = movAccMoffs (row.2 p o) p row.1 o s := by
  intro row hrow
  fin_cases hrow
  all_goals exact fun _ _ _ => rfl

/-- Opcodes A2 and A3. -/
theorem exec_movMoffsAccRows : ∀ row ∈ movMoffsAccRows, ∀ (p : Prefixes) (o : Moffs) (s : State),
    exec (row.2 p o) s = movMoffsAcc (row.2 p o) p row.1 o s := by
  intro row hrow
  fin_cases hrow
  all_goals exact fun _ _ _ => rfl

/-- Opcodes B0 to BF: the instruction keeps the immediate's bits below the operand width. -/
theorem exec_movRegImmRows : ∀ row ∈ movRegImmRows, ∀ (p : Prefixes) (r : BitVec 3) (v : Quad) (s : State),
    exec (row.2 p r v) s = movPlusImm (row.2 p r v) p row.1 r (truncTo row.1 v) s := by
  intro row hrow
  fin_cases hrow
  all_goals exact fun _ _ _ _ => rfl

/-- Opcodes C6 and C7 but for the 64-bit row: the instruction keeps the immediate's bits below the operand width. -/
theorem exec_movRmImmRows : ∀ row ∈ movRmImmRows, ∀ (p : Prefixes) (rm : Rm) (v : Quad) (s : State),
    exec (row.2 p rm v) s = movRmImmediate (row.2 p rm v) p row.1 rm (truncTo row.1 v) s := by
  intro row hrow
  fin_cases hrow
  all_goals exact fun _ _ _ _ => rfl

/-! ## What a completed move has written -/

section
variable {i : Instr} {s t u : State} {p : Prefixes} {rex b ls : Bool} {w : Width} {n : BitVec 4} {rm : Rm} {v v' : Quad}
  {pas : List Nat}

/-- Retiring an instruction writes no general register. -/
theorem regWritten_retire (h : RegWritten s u rex w n v) : RegWritten s (retire i s u b ls) rex w n v :=
  ⟨h.value, h.kept, h.cleared, h.others⟩

/-- Retiring an instruction writes no memory. -/
theorem storedAt_retire (h : StoredAt pas v s u) : StoredAt pas v s (retire i s u b ls) := ⟨h.bytes, h.others⟩

/-- Retiring an instruction moves `pc` and `ss_shadow`, which `SameSystem` leaves open, and the model's own counters. -/
theorem sameSystem_retire (h : SameSystem s u) : SameSystem s (retire i s u b ls) where
  flags := h.flags
  segs := { h.segs with }
  crs := { h.crs with }
  drs := { h.drs with }
  fixed := { h.fixed with }

/-- A store changes nothing but memory. -/
theorem sameSystem_storeAt (s : State) (pas : List Nat) (v : Quad) : SameSystem s (s.storeAt pas v) where
  flags := rfl
  segs := by constructor <;> rfl
  crs := by constructor <;> rfl
  drs := by constructor <;> rfl
  fixed := by constructor <;> rfl

/-- An instruction that writes one register. -/
theorem written_retire_writeReg (i : Instr) (s : State) (rex : Bool) (w : Width) (n : BitVec 4) (v : Quad) (b ls : Bool) :
    RegWritten s (retire i s (s.writeReg rex w n v) b ls) rex w n v ∧ SameMem s (retire i s (s.writeReg rex w n v) b ls) ∧
      SameSystem s (retire i s (s.writeReg rex w n v) b ls) :=
  ⟨regWritten_retire (regWritten_writeReg s rex w n v), fun a => by simp, sameSystem_retire (sameSystem_writeReg s rex w n v)⟩

/-- An instruction that makes one store. -/
theorem written_retire_storeAt (i : Instr) (s : State) (pas : List Nat) (v : Quad) (b ls : Bool) :
    StoredAt pas v s (retire i s (s.storeAt pas v) b ls) ∧ SameGprBut [] s (retire i s (s.storeAt pas v) b ls) ∧
      SameSystem s (retire i s (s.storeAt pas v) b ls) :=
  ⟨storedAt_retire (storedAt_storeAt s pas v), fun _ _ => rfl, sameSystem_retire (sameSystem_storeAt s pas v)⟩

/-- An r/m operand that is ready is written. -/
theorem exists_writeRm_of_ready (v : Quad) (h : RmReady s i p w rm) : ∃ u, s.writeRm i p w v rm = .ok u := by
  cases rm with
  | reg n => exact ⟨_, rfl⟩
  | mem m =>
    obtain ⟨pas, hpas⟩ := h
    exact ⟨_, memWrite_ok_iff.2 ⟨pas, hpas, rfl⟩⟩

/-- An instruction that writes its r/m operand: one register, or one store. -/
theorem written_retire_writeRm (h : s.writeRm i p w v rm = .ok u) (b ls : Bool) :
    RmWritten s (retire i s u b ls) i p w v rm ∧ SameSystem s (retire i s u b ls) := by
  rcases writeRm_ok_iff.1 h with ⟨n, rfl, rfl⟩ | ⟨m, pas, rfl, hpas, rfl⟩
  · obtain ⟨hreg, hmem, hsys⟩ := written_retire_writeReg i s p.rex.isSome w (rmField p n) v b ls
    exact ⟨⟨hreg, hmem⟩, hsys⟩
  · obtain ⟨hstored, hgpr, hsys⟩ := written_retire_storeAt i s pas v b ls
    refine ⟨⟨hgpr, fun pas' hpas' => ?_⟩, hsys⟩
    obtain rfl : pas = pas' := Except.ok.inj (hpas.symm.trans hpas')
    exact hstored

/-- A register write shows only the bits of the value below the width. -/
theorem RegWritten.congr (h : RegWritten s t rex w n v) (hv : ∀ k, k < 8 * w.bytes → v.getLsbD k = v'.getLsbD k) :
    RegWritten s t rex w n v' :=
  { h with value := fun k hk => (h.value k hk).trans (hv k hk) }

/-- A store shows only the bits of the value in its bytes. -/
theorem StoredAt.congr (h : StoredAt pas v s t) (hv : ∀ k, k < 8 * pas.length → v.getLsbD k = v'.getLsbD k) :
    StoredAt pas v' s t where
  bytes hm hn k hk := by
    rw [h.bytes hm hn k hk]
    ext j hj
    simpa [hj] using hv (8 * k + j) (by omega)
  others := h.others

/-- Writing the truncated value is writing the value. -/
theorem RegWritten.of_truncTo (h : RegWritten s t rex w n (truncTo w v)) : RegWritten s t rex w n v :=
  h.congr fun k hk => by simp [truncTo_getLsbD, hk]

@[inherit_doc RegWritten.of_truncTo]
theorem RmWritten.of_truncTo (h : RmWritten s t i p w (truncTo w v) rm) : RmWritten s t i p w v rm := by
  cases rm with
  | reg n =>
    obtain ⟨hreg, hmem⟩ := h
    exact ⟨hreg.of_truncTo, hmem⟩
  | mem m =>
    obtain ⟨hgpr, hstored⟩ := h
    refine ⟨hgpr, fun pas hpas => (hstored pas hpas).congr fun k hk => ?_⟩
    rw [resolve_length hpas] at hk
    simp [truncTo_getLsbD, hk]

/-- Writing an immediate to an r/m operand that is ready completes. -/
theorem movRmImmediate_of_ready (v : Quad) (hl : p.lock = false) (h : RmReady s i p w rm) :
    ∃ t, movRmImmediate i p w rm v s = .next t ∧ RmWritten s t i p w v rm ∧ SameSystem s t := by
  obtain ⟨u, hu⟩ := exists_writeRm_of_ready v h
  exact ⟨_, movRmImmediate_next_iff.2 ⟨hl, u, hu, rfl⟩, written_retire_writeRm hu _ _⟩

end

/-! ## The statements

Four of them are named like the shared operations of the model, so they stand in a namespace of their own. -/

namespace DataMoves

/-- Settles O37: the rows are `movRmReg`, which writes the register's value to an r/m operand that is ready. -/
theorem movRmReg : Obligations.MovRmReg := by
  intro row hrow p rm reg s hl hready
  obtain ⟨u, hu⟩ := exists_writeRm_of_ready (s.readReg p.rex.isSome row.1 (regField p reg)) hready
  rw [exec_movRmRegRows row hrow]
  exact ⟨_, movRmReg_next_iff.2 ⟨hl, u, hu, rfl⟩, written_retire_writeRm hu _ _⟩

/-- Settles O38: the rows are `movRegRm`, which writes the value of the r/m operand to the register. -/
theorem movRegRm : Obligations.MovRegRm := by
  intro row hrow p reg rm s v hl hv
  rw [exec_movRegRmRows row hrow]
  exact ⟨_, movRegRm_next_iff.2 ⟨hl, v, hv, rfl⟩, written_retire_writeReg ..⟩

/-- Settles O39: the rows are `movAccMoffs`, which writes the bytes at the resolved addresses to register 0. -/
theorem movAccMoffs : Obligations.MovAccMoffs := by
  intro row hrow p o s pas hl hpas
  rw [exec_movAccMoffsRows row hrow]
  exact ⟨_, movAccMoffs_next_iff.2 ⟨hl, pas, hpas, rfl⟩, written_retire_writeReg ..⟩

/-- Settles O40: the rows are `movMoffsAcc`, which stores register 0 at the resolved addresses. -/
theorem movMoffsAcc : Obligations.MovMoffsAcc := by
  intro row hrow p o s pas hl hpas
  rw [exec_movMoffsAccRows row hrow]
  exact ⟨_, movMoffsAcc_next_iff.2 ⟨hl, pas, hpas, rfl⟩, written_retire_storeAt ..⟩

/-- Settles O41: the rows are `movPlusImm` at the truncated immediate, and the register takes only its bits below the width. -/
theorem movRegImm : Obligations.MovRegImm := by
  intro row hrow p r v s hl
  rw [exec_movRegImmRows row hrow]
  exact ⟨_, movPlusImm_next_iff.2 ⟨hl, rfl⟩, (written_retire_writeReg ..).imp_left .of_truncTo⟩

/-- Settles O42: the rows are `movRmImmediate`, at the truncated immediate, or in the 64-bit row at the sign-extended one. -/
theorem movRmImm : Obligations.MovRmImm := by
  refine ⟨fun row hrow p rm v s hl hready => ?ownWidth, fun p rm imm s hl hready => ?signExtended⟩
  case ownWidth =>
    rw [exec_movRmImmRows row hrow]
    obtain ⟨t, ht, hrm, hsys⟩ := movRmImmediate_of_ready (truncTo row.1 v) hl hready
    exact ⟨t, ht, hrm.of_truncTo, hsys⟩
  case signExtended => exact movRmImmediate_of_ready (imm.signExtend 64) hl hready

end DataMoves

end Sys2Proof.Machine
end

section
/-! PROOF. Moves of segment registers: the store of a selector, and the load of a segment register through each of its answers. -/

namespace Sys2Proof.Machine

/-! ## The rows as the shared operations (41_mov_sreg.md R181 to R185) -/

/-- Opcode 8C. -/
theorem exec_movRmSregRows : ∀ row ∈ movRmSregRows, ∀ (p : Prefixes) (rm : Rm) (sreg : BitVec 3) (s : State),
    exec (row.2 p rm sreg) s = movRmSreg (row.2 p rm sreg) p row.1 rm sreg s := by
  intro row hrow
  fin_cases hrow
  all_goals exact fun _ _ _ _ => rfl

/-- Opcode 8E. -/
theorem exec_movSregRmRows : ∀ row ∈ movSregRmRows, ∀ (p : Prefixes) (sreg : BitVec 3) (rm : Rm) (s : State),
    exec (row p sreg rm) s = movSregRm (row p sreg rm) p sreg rm s := by
  intro row hrow
  fin_cases hrow
  all_goals exact fun _ _ _ _ => rfl

/-! ## Storing a selector (R180 to R183) -/

/-- Settles O43: the rows are `movRmSreg`, which writes the selector's value to the register. -/
theorem movRegSreg : Obligations.MovRegSreg := by
  intro row hrow p n sreg g s hl hg
  rw [exec_movRmSregRows row hrow]
  obtain ⟨hreg, hmem, hsys⟩ := written_retire_writeReg (row.2 p (.reg n) sreg) s p.rex.isSome row.1 (rmField p n)
    (s.selectorValue row.1 g) false false
  exact ⟨_, _, movRmSreg_next_iff.2 ⟨hl, g, hg, .inl ⟨n, rfl, rfl⟩⟩, hreg, by simp [State.selectorValue], hmem, hsys⟩

/-- Settles O44: the rows are `movRmSreg`, which stores the selector at the two resolved addresses. -/
theorem movMemSreg : Obligations.MovMemSreg := by
  intro row hrow p m sreg g s pas hl hg hpas
  rw [exec_movRmSregRows row hrow]
  exact ⟨_, movRmSreg_next_iff.2 ⟨hl, g, hg, .inr ⟨m, pas, rfl, hpas, rfl⟩⟩, resolve_length hpas, written_retire_storeAt ..⟩

/-! ## What a load of a segment register leaves alone (R189 to R193, R200) -/

@[simp] theorem seg_retire (i : Instr) (s t : State) (b ls : Bool) (g : SegReg) : (retire i s t b ls).seg g = t.seg g := by
  cases g <;> rfl

/-- The state after a completed load of `g` that has left `u`: `ss_shadow` is set by a load of SS alone (R200). -/
def retireLoad (i : Instr) (s u : State) (g : SegReg) : State :=
  retire i s u (if g = .ss then s.shadowAfterSs else false) (decide (g = .ss))

/-- A load that writes one segment register, and memory. -/
theorem sregLoaded_retireLoad (i : Instr) (s : State) (m : List Host.Cell) (g : SegReg) (r : SegmentRegister) :
    SregLoaded g r s (retireLoad i s ({ s with mem := m }.setSeg g r) g) where
  loaded := by simp [retireLoad]
  segs g' hne := by
    rw [retireLoad, seg_retire, seg_setSeg_ne hne]
    cases g' <;> rfl
  gprs n _ := by simp [retireLoad, State.x]
  flags := by simp [retireLoad]
  crs := by constructor <;> simp [retireLoad]
  drs := by constructor <;> simp [retireLoad]
  fixed := by constructor <;> simp [retireLoad]
  shadow := by simp [retireLoad, State.shadowAfterSs]
  after := by simp [retireLoad]

/-- A load that writes one segment register and no memory. -/
theorem sregLoaded_retireLoad_setSeg (i : Instr) (s : State) (g : SegReg) (r : SegmentRegister) :
    SameMem s (retireLoad i s (s.setSeg g r) g) ∧ SregLoaded g r s (retireLoad i s (s.setSeg g r) g) :=
  ⟨fun a => by simp [retireLoad], sregLoaded_retireLoad i s s.mem g r⟩

/-- Writing cells, as the statements say it. -/
theorem cellsWritten_of_mem_eq {cells : List Host.Cell} {s t : State} (h : t.mem = Memory.writeAll s.mem cells) :
    CellsWritten cells s t where
  bytes hm hn c hc := by rw [h, read_writeAll_of_mem hm hn hc]
  others a ha := by rw [h, read_writeAll_of_notMem ha]

/-! ## From `loadSeg` to the instruction (R197) -/

section
variable {row : Prefixes → BitVec 3 → Rm → Instr} {p : Prefixes} {sreg : BitVec 3} {g : SegReg} {rm : Rm} {s u : State} {v : Quad}
  {e : Stop} (hrow : row ∈ movSregRmRows) (hl : p.lock = false) (hg : segOfCode sreg = some g) (hcs : g ≠ .cs)
  (hv : RmValue s (row p sreg rm) p .b16 v rm)
include hrow hl hg hcs hv

/-- An 8E row whose source can be read completes as the load does. -/
theorem exec_of_loadSeg_ok (h : s.loadSeg g (v.setWidth 16) = .ok u) :
    exec (row p sreg rm) s = .next (retireLoad (row p sreg rm) s u g) := by
  rw [exec_movSregRmRows row hrow]
  refine movSregRm_next_iff.2 ⟨hl, g, hg, hcs, v, hv, u, h, ?_⟩
  simp only [retireLoad, segOfCode_ss_iff hg]

/-- An 8E row whose source can be read stops as the load does. -/
theorem exec_of_loadSeg_error (h : s.loadSeg g (v.setWidth 16) = .error e) : exec (row p sreg rm) s = s.stop e :=
  (exec_movSregRmRows row hrow ..).trans (movSregRm_stop hl hg hcs hv h)

end

/-! ## The three kinds of load (R189; R190, R192, R193; R190, R191) -/

/-- NULL selectors are 0000 to 0003 (10_state.md R32). -/
theorem isNull_iff {sel : Selector} : isNull sel = true ↔ sel.toNat ≤ 3 := by
  have hlt : sel.toNat < 65536 := sel.isLt
  rw [isNull, beq_iff_eq, ← BitVec.toNat_inj, BitVec.extractLsb'_toNat, Nat.shiftRight_eq_div_pow]
  change sel.toNat / 2 ^ 2 % 2 ^ 14 = 0 ↔ _
  omega

/-- RPL is the low two bits of the selector (10_state.md R32). -/
theorem rpl_eq (sel : Selector) : rpl sel = sel.setWidth 2 := by
  rw [rpl, BitVec.setWidth_eq_extractLsb' (by decide)]

section
variable {s : State} {g : SegReg} {sel : Selector}

/-- Sixteen times the selector is the shift by 4 of R189. -/
theorem loadSeg_of_real (h : s.mode = .real ∨ s.mode = .v86) :
    s.loadSeg g sel = .ok (s.setSeg g
      { sel := sel, hidden := { null := false, d := { (s.seg g).hidden.d with base := BitVec.ofNat 64 (16 * sel.toNat) } } }) := by
  have hbase : (sel.setWidth 64) <<< 4 = BitVec.ofNat 64 (16 * sel.toNat) := by
    apply BitVec.eq_of_toNat_eq
    rw [BitVec.toNat_shiftLeft, BitVec.toNat_setWidth_of_le (by decide), Nat.shiftLeft_eq, BitVec.toNat_ofNat, Nat.mul_comm]
  rw [State.loadSeg, if_pos h, State.loadSegReal, hbase]

variable (hm : s.mode = .prot ∨ s.mode = .compat ∨ s.mode = .long64)
include hm

/-- The modes with descriptors are neither of those of R189. -/
theorem not_real_of_descriptorMode : ¬ (s.mode = .real ∨ s.mode = .v86) := by
  rcases hm with hm | hm | hm <;> simp [hm]

theorem privilege_of_descriptorMode : s.privilege = s.cpl :=
  have ⟨hreal, hv86⟩ := not_or.1 (not_real_of_descriptorMode hm)
  privilege_eq_cpl hreal hv86

theorem loadSeg_of_null (hn : sel.toNat ≤ 3) : s.loadSeg g sel = s.loadSegNull g sel := by
  rw [State.loadSeg, if_neg (not_real_of_descriptorMode hm), if_pos (isNull_iff.2 hn)]

theorem loadSeg_of_not_null (hn : ¬ sel.toNat ≤ 3) : s.loadSeg g sel = s.loadSegDescriptor g sel := by
  rw [State.loadSeg, if_neg (not_real_of_descriptorMode hm), if_neg (isNull_iff.not.2 hn)]

end

/-- Settles O46: in these modes the load always answers, with the base that R189 gives. -/
theorem movSregReal : Obligations.MovSregReal := by
  intro row hrow p sreg g rm s v hm hl hg hcs hv
  exact ⟨_, exec_of_loadSeg_ok hrow hl hg hcs hv (loadSeg_of_real hm), sregLoaded_retireLoad_setSeg ..⟩

/-- Settles O47: the load of a NULL selector is refused to SS alone, by the mode, CPL and RPL. -/
theorem movSregNull : Obligations.MovSregNull := by
  intro row hrow p sreg g rm s v hm hl hg hcs hv hn
  have hload := loadSeg_of_null (g := g) hm hn
  have hrpl : rpl (v.setWidth 16) = v.setWidth 2 := (rpl_eq _).trans (BitVec.setWidth_setWidth_of_le _ (by decide))
  rw [State.loadSegNull, hrpl, privilege_of_descriptorMode hm] at hload
  refine ⟨fun htakes => ?takes, fun hss hno => ?faults⟩
  case takes =>
    have hno : ¬ (g = .ss ∧ (s.mode ≠ .long64 ∨ s.cpl = 3 ∨ v.setWidth 2 ≠ s.cpl)) := by
      rintro ⟨hss, hno⟩
      obtain ⟨hlong, hcpl, hr⟩ := htakes.resolve_left (not_not.2 hss)
      exact hno.elim (· hlong) (·.elim hcpl (· hr))
    rw [if_neg hno] at hload
    exact ⟨_, _, exec_of_loadSeg_ok hrow hl hg hcs hv hload, sregLoaded_retireLoad_setSeg ..⟩
  case faults =>
    rw [if_pos ⟨hss, hno⟩] at hload
    exact exec_of_loadSeg_error hrow hl hg hcs hv hload

/-! ## Loading a descriptor (R190, R191), by what `FetchDescriptor` answers -/

section
variable {s : State} {g : SegReg} {sel : Selector} {d : Descriptor} {acc : AccessedUpdate} {e : Stop}

theorem loadSegDescriptor_of_outside (h : s.fetchDescriptor sel = .outsideLimits ∨ s.fetchDescriptor sel = .noncanonical) :
    s.loadSegDescriptor g sel = .error (.exc (.gp (selectorCode sel))) := by
  rcases h with h | h <;> rw [State.loadSegDescriptor, h]

theorem loadSegDescriptor_of_pageFault {c : BitVec 32} {la : Quad} (h : s.fetchDescriptor sel = .pageFault c la) :
    s.loadSegDescriptor g sel = .error (.exc (.pf c la)) := by
  rw [State.loadSegDescriptor, h]

theorem loadSegDescriptor_of_unbacked (h : s.fetchDescriptor sel = .unbacked) :
    s.loadSegDescriptor g sel = .error (.refuse .unbackedMemory) := by
  rw [State.loadSegDescriptor, h]

/-- A descriptor that fails a check is not loaded. -/
theorem loadSegDescriptor_of_check_error (h : s.fetchDescriptor sel = .desc d acc) (hc : s.checkLoad g sel d = .error e) :
    s.loadSegDescriptor g sel = .error e := by
  simp only [State.loadSegDescriptor, h, hc, error_bind]

/-- After the checks the update of the accessed bit may still stop the load (R188; entry 11). -/
theorem loadSegDescriptor_of_update_error (h : s.fetchDescriptor sel = .desc d acc) (hc : s.checkLoad g sel d = .ok ())
    (hu : s.setAccessed acc = .error e) : s.loadSegDescriptor g sel = .error e := by
  simp only [State.loadSegDescriptor, h, hc, hu, ok_bind, error_bind]

theorem loadSegDescriptor_of_store {cells : List Host.Cell} (h : s.fetchDescriptor sel = .desc d (.store cells))
    (hc : s.checkLoad g sel d = .ok ()) :
    s.loadSegDescriptor g sel = .ok ({ s with mem := Memory.writeAll s.mem cells }.setSeg g
      { sel := sel, hidden := { null := false, d := d } }) := by
  simp only [State.loadSegDescriptor, h, hc, State.setAccessed, ok_bind]

end

/-! ## The checks on a descriptor (R190, R191) -/

/-- The checks on a descriptor are: #GP where `bad`, else the exception `absent` where it is not present, else none. -/
structure ChecksAre (s : State) (g : SegReg) (sel : Selector) (bad : Descriptor → Prop) (absent : Exception) : Prop where
  gp : ∀ d, bad d → s.checkLoad g sel d = .error (.exc (.gp (sel &&& 0xFFFC)))
  absent : ∀ d, ¬ bad d → d.present = false → s.checkLoad g sel d = .error (.exc absent)
  pass : ∀ d, ¬ bad d → d.present = true → s.checkLoad g sel d = .ok ()

/-- The shape of `checkSs` and `checkData`. -/
theorem checksAre_of_eq_ite {s : State} {g : SegReg} {sel : Selector} {bad : Descriptor → Prop} [DecidablePred bad]
    {absent : Exception} (h : ∀ d, s.checkLoad g sel d =
      if bad d then .error (.exc (.gp (selectorCode sel))) else if ¬ d.present then .error (.exc absent) else .ok ()) :
    ChecksAre s g sel bad absent where
  gp d hbad := by rw [h, if_pos hbad, selectorCode]
  absent d hok habsent := by rw [h, if_neg hok, if_pos (by simp [habsent])]
  pass d hok hpresent := by rw [h, if_neg hok, if_neg (not_not.2 hpresent)]

/-- SS (R190): RPL and DPL are CPL, and the segment is writable data. -/
theorem checksAre_ss (s : State) (sel : Selector) :
    ChecksAre s .ss sel (fun d => rpl sel ≠ s.privilege ∨ ¬ segWritable d.kind ∨ d.dpl ≠ s.privilege) (.ss (selectorCode sel)) :=
  checksAre_of_eq_ite fun _ => if_pos rfl

/-- DS, ES, FS, GS (R191): the segment is readable, and DPL is at least RPL and CPL but for conforming code. -/
theorem checksAre_data {g : SegReg} (hg : g ≠ .ss) (s : State) (sel : Selector) :
    ChecksAre s g sel (fun d => ¬ segReadable d.kind ∨ (privilegeMatters d.kind ∧ (d.dpl < rpl sel ∨ d.dpl < s.privilege)))
      (.np (selectorCode sel)) :=
  checksAre_of_eq_ite fun _ => if_neg hg

/-- What an 8E row does with a non-NULL selector, by the answer of `FetchDescriptor` and the checks on the descriptor. -/
theorem exec_of_checks {row : Prefixes → BitVec 3 → Rm → Instr} {p : Prefixes} {sreg : BitVec 3} {g : SegReg} {rm : Rm} {s : State}
    {v : Quad} {bad : Descriptor → Prop} {absent : Exception} (hrow : row ∈ movSregRmRows)
    (hm : s.mode = .prot ∨ s.mode = .compat ∨ s.mode = .long64) (hl : p.lock = false) (hg : segOfCode sreg = some g) (hcs : g ≠ .cs)
    (hv : RmValue s (row p sreg rm) p .b16 v rm) (hn : ¬ (v.setWidth 16).toNat ≤ 3)
    (hchecks : ChecksAre s g (v.setWidth 16) bad absent) :
    let sel : Selector := v.setWidth 16
    (s.fetchDescriptor sel = .outsideLimits ∨ s.fetchDescriptor sel = .noncanonical →
      exec (row p sreg rm) s = .fault (s.raise (.gp (sel &&& 0xFFFC)))) ∧
    (∀ c la, s.fetchDescriptor sel = .pageFault c la → exec (row p sreg rm) s = .fault (s.raise (.pf c la))) ∧
    (∀ d acc, s.fetchDescriptor sel = .desc d acc → bad d →
      exec (row p sreg rm) s = .fault (s.raise (.gp (sel &&& 0xFFFC)))) ∧
    (s.fetchDescriptor sel = .unbacked → exec (row p sreg rm) s = .refused .unbackedMemory) ∧
    (∀ d acc, s.fetchDescriptor sel = .desc d acc → ¬ bad d → d.present = false →
      exec (row p sreg rm) s = .fault (s.raise absent)) ∧
    (∀ d c la, s.fetchDescriptor sel = .desc d (.pageFault c la) → ¬ bad d → d.present = true →
      exec (row p sreg rm) s = .fault (s.raise (.pf c la))) ∧
    (∀ d, s.fetchDescriptor sel = .desc d .unbacked → ¬ bad d → d.present = true →
      exec (row p sreg rm) s = .refused .unbackedMemory) ∧
    (∀ d cells, s.fetchDescriptor sel = .desc d (.store cells) → ¬ bad d → d.present = true →
      ∃ t, exec (row p sreg rm) s = .next t ∧ CellsWritten cells s t ∧
        SregLoaded g { sel := sel, hidden := { null := false, d := d } } s t) := by
  intro sel
  have hload : s.loadSeg g sel = s.loadSegDescriptor g sel := loadSeg_of_not_null hm hn
  have stops {e : Stop} (h : s.loadSegDescriptor g sel = .error e) : exec (row p sreg rm) s = s.stop e :=
    exec_of_loadSeg_error hrow hl hg hcs hv (hload.trans h)
  refine ⟨fun h => stops (loadSegDescriptor_of_outside h), fun c la h => stops (loadSegDescriptor_of_pageFault h),
    fun d acc h hbad => stops (loadSegDescriptor_of_check_error h (hchecks.gp d hbad)),
    fun h => stops (loadSegDescriptor_of_unbacked h),
    fun d acc h hok habsent => stops (loadSegDescriptor_of_check_error h (hchecks.absent d hok habsent)),
    fun d c la h hok hpresent => stops (loadSegDescriptor_of_update_error h (hchecks.pass d hok hpresent) rfl),
    fun d h hok hpresent => stops (loadSegDescriptor_of_update_error h (hchecks.pass d hok hpresent) rfl),
    fun d cells h hok hpresent => ?loaded⟩
  case loaded =>
    have hok := hload.trans (loadSegDescriptor_of_store h (hchecks.pass d hok hpresent))
    exact ⟨_, exec_of_loadSeg_ok hrow hl hg hcs hv hok, cellsWritten_of_mem_eq (by simp [retireLoad]), sregLoaded_retireLoad ..⟩

/-- Settles O48: `exec_of_checks` with the checks on SS. -/
theorem movSsDescriptor : Obligations.MovSsDescriptor := by
  intro row hrow p rm s v hm hl hv hn
  have hchecks := checksAre_ss s (v.setWidth 16)
  simp only [rpl_eq, privilege_of_descriptorMode hm, Bool.not_eq_true] at hchecks
  exact exec_of_checks hrow hm hl (by decide) (by decide) hv hn hchecks

/-- Settles O49: `exec_of_checks` with the checks on the data segment registers, which the statement tells apart by kind. -/
theorem movDataDescriptor : Obligations.MovDataDescriptor := by
  intro row hrow p sreg g rm s v hm hl hg hcs hss hv hn sel bad
  have hchecks := checksAre_data hss s sel
  have hbad : ∀ d, (¬ segReadable d.kind ∨ (privilegeMatters d.kind ∧ (d.dpl < rpl sel ∨ d.dpl < s.privilege))) ↔ bad d := by
    intro d
    rw [rpl_eq, privilege_of_descriptorMode hm, BitVec.lt_def, BitVec.lt_def]
    obtain ⟨kind, dpl, present, base, limit, big, long⟩ := d
    match kind with
    | .data _ _ | .code true false => simp [bad, segReadable, privilegeMatters]
    | .code true true => simp [bad, segReadable, privilegeMatters]
    | .code false _ | .system => simp [bad, segReadable]
  simp only [hbad] at hchecks
  exact exec_of_checks hrow hm hl hg hcs hv hn hchecks

end Sys2Proof.Machine
end

section
/-! PROOF. The descriptor tables in memory: where an entry stands, and what reading it and marking it accessed answer. -/

namespace Sys2Proof.Machine

/-! ## Where an entry stands (41_mov_sreg.md R187) -/

section
variable {s : State} {sel : Selector}

/-- An entry has 8 bytes, and its index is the selector without TI and RPL (10_state.md R32). -/
theorem entryOffset_eq (sel : Selector) : entryOffset sel = 8 * (sel.toNat / 8) := by
  have hlt : sel.toNat < 65536 := sel.isLt
  rw [entryOffset, BitVec.extractLsb'_toNat, Nat.shiftRight_eq_div_pow, Nat.mod_eq_of_lt (by omega)]

theorem tableOf_eq (s : State) (sel : Selector) :
    s.tableOf sel =
      (if sel.getLsbD 2 = true then s.ldtr.base else s.gdtr.base, if sel.getLsbD 2 = true then s.ldtr.limit.toNat else s.gdtr.limit.toNat) := by
  rw [State.tableOf]
  split <;> rfl

theorem entryByte_eq (s : State) (sel : Selector) (k : Nat) :
    s.entryByte sel k =
      if s.mode = .long64 ∨ s.mode = .compat then (s.tableOf sel).1 + BitVec.ofNat 64 (8 * (sel.toNat / 8) + k)
      else (((s.tableOf sel).1 + BitVec.ofNat 64 (8 * (sel.toNat / 8) + k)).setWidth 32).setWidth 64 := by
  simp only [State.entryByte, ia32e_iff, entryOffset_eq, truncTo]

/-- The entry is inside its table, and an LDT is one that LDTR locates. -/
def State.entryInside (s : State) (sel : Selector) : Prop :=
  8 * (sel.toNat / 8) + 7 ≤ (s.tableOf sel).2 ∧ (sel.getLsbD 2 = true → 3 < s.ldtr.sel.toNat)

/-- In 64-bit mode each byte of the entry has a canonical address. -/
def State.entryCanonical (s : State) (sel : Selector) : Prop :=
  s.mode = .long64 → ∀ k, k < 8 → s.canonical (s.entryByte sel k) = true

theorem entryInside_iff :
    s.entryInside sel ↔ ¬ ((s.tableOf sel).2 < entryOffset sel + 7 ∨ (sel.getLsbD 2 ∧ isNull s.ldtr.sel)) := by
  rw [State.entryInside, entryOffset_eq, isNull_iff, not_or, not_lt, not_and, not_le]

theorem entryCanonical_iff :
    s.entryCanonical sel ↔ ¬ (s.mode = .long64 ∧ ¬ ((List.range 8).all fun k => s.canonical (s.entryByte sel k))) := by
  rw [State.entryCanonical, not_and, not_not]
  simp only [List.all_eq_true, List.mem_range]

end

/-! ## Reading an entry (R187; entries 25 and 29) -/

/-- A supervisor access to a descriptor table (20_memory.md R74). -/
def tableAccess (t : AccessType) : AccessKind := { type := t, user := false }

/-- A word is its 8 bytes. -/
theorem eq_of_bytes {v w : Quad} (h : ∀ k, k < 8 → v.extractLsb' (8 * k) 8 = w.extractLsb' (8 * k) 8) : v = w := by
  apply BitVec.eq_of_getLsbD_eq
  intro i hi
  have hbyte := congrArg (·.getLsbD (i % 8)) (h (i / 8) (by omega))
  simpa [BitVec.getLsbD_extractLsb', Nat.mod_lt, Nat.div_add_mod] using hbyte

section
variable {s : State} {sel : Selector}

theorem tableDescriptor_of_not_inside (h : ¬ s.entryInside sel) : s.tableDescriptor sel = .outsideLimits := by
  rw [State.tableDescriptor, if_pos (not_not.1 (entryInside_iff.not.1 h))]

theorem tableDescriptor_of_not_canonical (hin : s.entryInside sel) (h : ¬ s.entryCanonical sel) :
    s.tableDescriptor sel = .noncanonical := by
  rw [State.tableDescriptor, if_neg (entryInside_iff.1 hin), if_pos (not_not.1 (entryCanonical_iff.not.1 h))]

variable (hin : s.entryInside sel) (hcan : s.entryCanonical sel)
include hin hcan

/-- Translation stops at the lowest byte that faults. -/
theorem tableDescriptor_of_pageFault {k : Nat} {c : BitVec 32} (hk : k < 8)
    (hlow : ∀ j, j < k → ∃ pa, s.translate (s.entryByte sel j) (tableAccess .read) = .phys pa)
    (hc : s.translate (s.entryByte sel k) (tableAccess .read) = .pageFault c) :
    s.tableDescriptor sel = .pageFault c (s.entryByte sel k) := by
  have hphys : s.physical (tableAccess .read) ((List.range 8).map (s.entryByte sel)) = .error (.exc (.pf c (s.entryByte sel k))) := by
    have h := physical_error_of (s := s) (k := tableAccess .read) (las := (List.range 8).map (s.entryByte sel)) (j := k) (c := c)
      (by simpa using hk) (fun j hj => by simpa using hlow j hj) (by simpa using hc)
    simpa using h
  rw [tableAccess] at hphys
  rw [State.tableDescriptor, if_neg (entryInside_iff.1 hin), if_neg (entryCanonical_iff.1 hcan), hphys]

/-- Where every byte translates, only the test for ordinary memory is left. -/
theorem tableDescriptor_of_phys {pa : Nat → Quad} {pas : List Nat} (hpas : pas = (List.range 8).map fun k => (pa k).toNat)
    (h : ∀ k, k < 8 → s.translate (s.entryByte sel k) (tableAccess .read) = .phys (pa k)) :
    s.tableDescriptor sel =
      if pas.all s.backed then .desc (descriptorOf (s.loadAt pas)) (s.markAccessed sel (s.loadAt pas)) else .unbacked := by
  have hphys : s.physical (tableAccess .read) ((List.range 8).map (s.entryByte sel)) = .ok pas := by
    rw [physical_ok_of (pas := (List.range 8).map pa) (by simpa using h), hpas, List.map_map]
    rfl
  rw [tableAccess] at hphys
  rw [State.tableDescriptor, if_neg (entryInside_iff.1 hin), if_neg (entryCanonical_iff.1 hcan), hphys]

theorem tableDescriptor_of_unbacked {pa : Nat → Quad} {k : Nat} (hk : k < 8)
    (h : ∀ k, k < 8 → s.translate (s.entryByte sel k) (tableAccess .read) = .phys (pa k)) (hb : s.backed (pa k).toNat = false) :
    s.tableDescriptor sel = .unbacked := by
  rw [tableDescriptor_of_phys hin hcan rfl h, if_neg]
  intro hall
  have hk' := List.all_eq_true.1 hall (pa k).toNat (List.mem_map.2 ⟨k, List.mem_range.2 hk, rfl⟩)
  exact Bool.false_ne_true (hb.symm.trans hk')

/-- Eight bytes in ordinary memory are the entry, little-endian (20_memory.md R62). -/
theorem tableDescriptor_of_bytes {pa : Nat → Quad} {e : Quad}
    (h : ∀ k, k < 8 → s.translate (s.entryByte sel k) (tableAccess .read) = .phys (pa k))
    (hbytes : ∀ k, k < 8 → s.backed (pa k).toNat = true ∧ Memory.read s.mem (pa k).toNat = e.extractLsb' (8 * k) 8) :
    s.tableDescriptor sel = .desc (descriptorOf e) (s.markAccessed sel e) := by
  have hload : s.loadAt ((List.range 8).map fun k => (pa k).toNat) = e := eq_of_bytes fun k hk => by
    rw [loadAt_byte s (by simpa using hk) hk]
    simpa using (hbytes k hk).2
  rw [tableDescriptor_of_phys hin hcan rfl h, hload, if_pos]
  simp only [List.all_map, List.all_eq_true, List.mem_range]
  exact fun k hk => (hbytes k hk).1

end

/-! ## The fields of an entry, and its accessed bit (R187, R188) -/

theorem entryFields_descriptorOf (e : Quad) : EntryFields e (descriptorOf e) where
  dpl := rfl
  present := rfl
  long := rfl
  big := rfl
  base := rfl
  limitBytes hg := if_neg (Bool.eq_false_iff.1 hg)
  limitPages hg := by
    have hlimit : (descriptorOf e).limit = e.extractLsb' 48 4 ++ e.extractLsb' 0 16 ++ (0xFFF : BitVec 12) := if_pos hg
    rw [hlimit, BitVec.toNat_append, ← Nat.shiftLeft_add_eq_or_of_lt (BitVec.isLt _), Nat.shiftLeft_eq]
    rfl
  system hs := if_neg (Bool.eq_false_iff.1 hs)
  data hs hc := (if_pos hs).trans (if_neg (Bool.eq_false_iff.1 hc))
  code hs hc := (if_pos hs).trans (if_pos hc)

section
variable {s : State} {sel : Selector} {e : Quad}

theorem markAccessed_of_set (h : e.getLsbD 40 = true) : s.markAccessed sel e = .store [] := by
  rw [State.markAccessed, if_pos h]

theorem markAccessed_of_pageFault {c : BitVec 32} (h : e.getLsbD 40 = false)
    (ht : s.translate (s.entryByte sel 5) (tableAccess .write) = .pageFault c) :
    s.markAccessed sel e = .pageFault c (s.entryByte sel 5) := by
  rw [tableAccess] at ht
  rw [State.markAccessed, if_neg (Bool.eq_false_iff.1 h), ht]

theorem markAccessed_of_phys {wa : Quad} (h : e.getLsbD 40 = false)
    (ht : s.translate (s.entryByte sel 5) (tableAccess .write) = .phys wa) :
    s.markAccessed sel e = if s.backed wa.toNat = true then .store [(wa.toNat, e.extractLsb' 40 8 ||| 1)] else .unbacked := by
  rw [tableAccess] at ht
  rw [State.markAccessed, if_neg (Bool.eq_false_iff.1 h), ht]

end

/-- Settles O50: with the entry's place in the model's terms, each clause is one answer of `State.tableDescriptor`. -/
theorem tableDescriptor : Obligations.TableDescriptor := by
  intro s sel hsource index isLdt limit base addr inside canonical read write
  have hfetch : s.fetchDescriptor sel = s.tableDescriptor sel := by rw [State.fetchDescriptor, hsource]
  have htable : s.tableOf sel = (base, limit) := tableOf_eq s sel
  have hinside : inside ↔ s.entryInside sel := by rw [State.entryInside, htable]
  have haddr : addr = s.entryByte sel := funext fun k => by rw [entryByte_eq, htable]
  have hcanonical : canonical ↔ s.entryCanonical sel := by simp only [canonical, haddr, State.entryCanonical]
  rw [hfetch, hinside, hcanonical]
  refine ⟨tableDescriptor_of_not_inside, tableDescriptor_of_not_canonical, fun k c hin hcan hk hlow hc => ?pageFault,
    fun pa hin hcan hpa => ⟨fun hno => ?unbacked, fun e hbytes => ?entry⟩⟩
  case pageFault =>
    simp only [haddr, read] at hlow hc ⊢
    exact tableDescriptor_of_pageFault hin hcan hk hlow hc
  case unbacked =>
    obtain ⟨k, hk, hb⟩ := hno
    simp only [haddr, read] at hpa
    exact tableDescriptor_of_unbacked hin hcan hk hpa hb
  case entry =>
    simp only [haddr, read, write] at hpa ⊢
    exact ⟨_, _, tableDescriptor_of_bytes hin hcan hpa hbytes, entryFields_descriptorOf e, markAccessed_of_set,
      fun c => markAccessed_of_pageFault, fun wa => markAccessed_of_phys⟩

end Sys2Proof.Machine
end

section
/-! PROOF. Control registers: the checks of an access in their order, reads, and the writes of CR0, CR2, CR3, CR4 and CR8. -/

namespace Sys2Proof.Machine

/-! ## Who may write control and debug registers (42_mov_cr.md R211; 43_mov_dr.md R251) -/

/-- Outside the privilege that MOV CR and MOV DR need, no kind of write reaches a control, debug or PDPT register. -/
theorem Wrote.sameCrsDrs {i : Instr} {s u : State} (h : Wrote i s u) (hs : ¬ s.supervisor) : SameCrs s u ∧ SameDrs s u := by
  cases h with
  | reg w n v =>
    obtain ⟨_, _, hcrs, hdrs, _⟩ := sameSystem_writeReg s i.prefixes.rex.isSome w n v
    exact ⟨hcrs, hdrs⟩
  | store a pas v =>
    obtain ⟨_, _, hcrs, hdrs, _⟩ := sameSystem_storeAt s pas v
    exact ⟨hcrs, hdrs⟩
  | sreg f g sel u _ _ _ _ h =>
    obtain ⟨r, cells, _, rfl⟩ := loadSeg_ok h
    exact ⟨by constructor <;> simp, by constructor <;> simp⟩
  | crDrRead _ _ _ _ hp | crWrite _ _ _ _ hp | drWrite _ _ _ hp => exact absurd hp hs

/-- Settles O20: the rows that write these registers complete only with the privilege for them, and retiring writes none. -/
theorem privilegedNeedsCpl0 : Obligations.PrivilegedNeedsCpl0 := by
  intro i s t h hpriv
  obtain ⟨_, u, hu, rfl⟩ := exec_next h
  obtain ⟨hcrs, hdrs⟩ := hu.sameCrsDrs fun hs => hpriv (supervisor_iff.1 hs).2
  exact ⟨{ hcrs with }, { hdrs with }⟩

/-! ## The rows as the shared operations (42_mov_cr.md R214 to R219) -/

/-- A row of `movRegCrRows` and `movCrRegRows`: the operand width, the constructor, the control-register number (R212). -/
abbrev CrRow := Width × (Prefixes → BitVec 2 → BitVec 3 → BitVec 3 → Instr) × (Prefixes → BitVec 3 → BitVec 4)

/-- Opcode 0F 20. -/
theorem exec_movRegCrRows : ∀ row ∈ movRegCrRows, ∀ (p : Prefixes) (mod : BitVec 2) (cr r : BitVec 3) (s : State),
    exec (row.2.1 p mod cr r) s = movRegCr (row.2.1 p mod cr r) p row.1 (row.2.2 p cr) r s := by
  intro row hrow
  fin_cases hrow
  all_goals exact fun _ _ _ _ _ => rfl

/-- Opcode 0F 22. -/
theorem exec_movCrRegRows : ∀ row ∈ movCrRegRows, ∀ (p : Prefixes) (mod : BitVec 2) (cr r : BitVec 3) (s : State),
    exec (row.2.1 p mod cr r) s = movCrReg (row.2.1 p mod cr r) p row.1 (row.2.2 p cr) r s := by
  intro row hrow
  fin_cases hrow
  all_goals exact fun _ _ _ _ _ => rfl

/-- A row of either opcode stops as its checks do. -/
theorem exec_of_crAccess_error {row : CrRow} (hrow : row ∈ movRegCrRows ++ movCrRegRows) {p : Prefixes} {cr : BitVec 3}
    {s : State} {e : Stop} (h : crAccess p (row.2.2 p cr) s = .error e) (mod : BitVec 2) (r : BitVec 3) :
    exec (row.2.1 p mod cr r) s = s.stop e := by
  rcases List.mem_append.1 hrow with hread | hwrite
  · rw [exec_movRegCrRows row hread, movRegCr_stop h]
  · rw [exec_movCrRegRows row hwrite, movCrReg_stop h]

/-! ## The checks of an access, in the order of R234 -/

section
variable {s : State} {p : Prefixes} {n : BitVec 4}

/-- A number that names no control register, or CR4 on a part without it. -/
theorem crOf_of_unnamed (h : n.toNat ∉ [0, 2, 3, 4, 8] ∨ (n = 4 ∧ s.cfg.hasCr4 = false)) : s.crOf n = .error (.exc .ud) := by
  cases hc : s.crOf n with
  | error e => rw [crOf_error hc]
  | ok c =>
    obtain ⟨rfl, hcr4⟩ := crOf_ok_iff.1 hc
    rcases h with hn | ⟨hn, hno⟩
    · cases c <;> exact absurd (by decide) hn
    · obtain rfl : c = .cr4 := by cases c <;> simp [CtlReg.number] at hn ⊢
      simp [hno] at hcr4

/-- The other numbers name one. -/
theorem exists_crOf_of_named (h : n.toNat ∈ [0, 2, 3, 4, 8]) (h4 : n = 4 → s.cfg.hasCr4 = true) : ∃ c, s.crOf n = .ok c := by
  have hcases : ∀ n : BitVec 4, n.toNat ∈ [0, 2, 3, 4, 8] → n = 0 ∨ n = 2 ∨ n = 3 ∨ n = 4 ∨ n = 8 := by decide
  rcases hcases n h with rfl | rfl | rfl | rfl | rfl
  · exact ⟨.cr0, rfl⟩
  · exact ⟨.cr2, rfl⟩
  · exact ⟨.cr3, rfl⟩
  · exact ⟨.cr4, crOf_ok_iff.2 ⟨rfl, fun _ => h4 rfl⟩⟩
  · exact ⟨.cr8, crOf_ok_iff.2 ⟨rfl, nofun⟩⟩

theorem crAccess_of_v86 (h : s.mode = .v86) : crAccess p n s = .error (.exc (.gp 0)) := by
  rw [crAccess, guardV86_error_iff.2 ⟨h, rfl⟩, error_bind]

/-- Past virtual-8086 mode LOCK is next. -/
theorem crAccess_of_lock (hm : s.mode ≠ .v86) (h : p.lock = true) : crAccess p n s = .error (.exc .ud) := by
  rw [crAccess, guardV86_guardLock_of_lock h, if_neg hm]

/-- A number that names no register is #UD with LOCK or without. -/
theorem crAccess_of_unnamed (hm : s.mode ≠ .v86) (h : s.crOf n = .error (.exc .ud)) : crAccess p n s = .error (.exc .ud) := by
  cases hl : p.lock with
  | true => exact crAccess_of_lock hm hl
  | false =>
    rw [crAccess, (guardV86_ok_iff (u := ())).2 hm, ok_bind, (guardLock_ok_iff (u := ())).2 hl, ok_bind, h, error_bind]

/-- CPL comes last. -/
theorem crAccess_of_cpl {c : CtlReg} (hm : s.mode ≠ .v86) (hl : p.lock = false) (hc : s.crOf n = .ok c) (h : s.privilege ≠ 0) :
    crAccess p n s = .error (.exc (.gp 0)) := by
  rw [crAccess, (guardV86_ok_iff (u := ())).2 hm, ok_bind, (guardLock_ok_iff (u := ())).2 hl, ok_bind, hc, ok_bind,
    guardCpl0_error_iff.2 ⟨h, rfl⟩, error_bind]

end

/-- Settles O51: each clause is one of the checks, with those before it passed. -/
theorem crAccessChecks : Obligations.CrAccessChecks := by
  intro row hrow p mod cr r s i n
  refine ⟨fun hm => ?v86, fun hm hl => ?lock, fun hm hn => ?unnamed, fun hm hreal hl hn h4 hcpl => ?cpl⟩
  case v86 => exact exec_of_crAccess_error hrow (crAccess_of_v86 hm) mod r
  case lock => exact exec_of_crAccess_error hrow (crAccess_of_lock hm hl) mod r
  case unnamed => exact exec_of_crAccess_error hrow (crAccess_of_unnamed hm (crOf_of_unnamed hn)) mod r
  case cpl =>
    obtain ⟨c, hc⟩ := exists_crOf_of_named hn h4
    have hpriv : s.privilege ≠ 0 := by rwa [privilege_eq_cpl hreal hm]
    exact exec_of_crAccess_error hrow (crAccess_of_cpl hm hl hc hpriv) mod r

/-! ## Reading a control register (R213 to R216, R220) -/

/-- Drawing the status flags writes no general register. -/
theorem regWritten_drawFlags {s u : State} {rex : Bool} {w : Width} {n : BitVec 4} {v : Quad} (h : RegWritten s u rex w n v) :
    RegWritten s u.drawFlags rex w n v :=
  ⟨h.value, h.kept, h.cleared, h.others⟩

/-- A row that reads a control or debug register writes the general register, and leaves the status flags drawn. -/
theorem written_retire_drawFlags (i : Instr) (s : State) (rex : Bool) (w : Width) (n : BitVec 4) (v : Quad) (b ls : Bool) :
    RegWritten s (retire i s (s.writeReg rex w n v).drawFlags b ls) rex w n v ∧
      SameButGprs s (retire i s (s.writeReg rex w n v).drawFlags b ls) := by
  obtain ⟨hflags, hsegs, hcrs, hdrs, hfixed⟩ := sameSystem_writeReg s rex w n v
  refine ⟨regWritten_retire (regWritten_drawFlags (regWritten_writeReg s rex w n v)), ?_⟩
  exact {
    flags := fun k hk => by rw [retire_flags, drawFlags_flags, withStatus_keeps _ _ k hk, hflags]
    segs := { hsegs with }
    crs := { hcrs with }
    drs := { hdrs with }
    fixed := { hfixed with }
    mem := fun a => by simp }

namespace CrMoves

/-- Settles O52: the rows are `movRegCr`, whose checks pass, and which writes the control register to the general one. -/
theorem movRegCr : Obligations.MovRegCr := by
  intro row hrow p mod cr r s c hl hs hn h4
  rw [exec_movRegCrRows row hrow]
  exact ⟨_, movRegCr_next_iff.2 ⟨c, crAccess_ok_iff.2 ⟨hl, hs, hn, h4⟩, rfl⟩, written_retire_drawFlags ..⟩

end CrMoves

/-! ## Writing a control register (R217 to R220) -/

/-- A completed write of a control register leaves everything else alone but the status flags. -/
theorem sameButCrs_retire {i : Instr} {s u : State} {c : CtlReg} {v : Quad} (h : s.writeCr c v = .ok u) (b ls : Bool) :
    SameButCrs s (retire i s u.drawFlags b ls) := by
  rw [writeCr_ok h]
  exact {
    gprs := fun _ _ => rfl
    flags := fun k hk => withStatus_keeps _ _ k hk
    segs := ⟨rfl, rfl, rfl, rfl, rfl, rfl⟩
    drs := ⟨rfl, rfl, rfl, rfl, rfl, rfl⟩
    fixed := ⟨rfl, rfl, rfl, rfl, rfl⟩
    lme := rfl
    mem := fun _ => rfl }

/-- The load of the PDPT changes the PDPT registers alone (20_memory.md R75). -/
theorem pdptLoad_eq {s t u : State} {isCr3 : Bool} (h : s.pdptLoad t isCr3 = .ok u) : u = { t with pdpte := u.pdpte } := by
  rcases pdptLoad_ok h with rfl | rfl <;> rfl

section
variable {row : CrRow} {p : Prefixes} {cr r : BitVec 3} {s u x : State} {c : CtlReg} {e : Stop} {isCr3 : Bool}

/-- A write whose checks pass and whose value is accepted completes, with the control registers that the write gives. -/
theorem exec_of_writeCr_ok (hrow : row ∈ movCrRegRows) (mod : BitVec 2) (hc : crAccess p (row.2.2 p cr) s = .ok c)
    (h : s.writeCr c (s.readReg p.rex.isSome row.1 (rmField p r)) = .ok u) :
    ∃ t, exec (row.2.1 p mod cr r) s = .next t ∧ SameCrs u t ∧ SameButCrs s t := by
  rw [exec_movCrRegRows row hrow]
  exact ⟨_, movCrReg_next_iff.2 ⟨c, hc, u, h, rfl⟩, ⟨rfl, rfl, rfl, rfl, rfl, rfl, rfl, rfl⟩, sameButCrs_retire h _ _⟩

/-- A write whose checks pass stops as the write itself does. -/
theorem exec_of_writeCr_error (hrow : row ∈ movCrRegRows) (mod : BitVec 2) (hc : crAccess p (row.2.2 p cr) s = .ok c)
    (h : s.writeCr c (s.readReg p.rex.isSome row.1 (rmField p r)) = .error e) : exec (row.2.1 p mod cr r) s = s.stop e := by
  rw [exec_movCrRegRows row hrow, movCrReg_write_stop hc h]

/-- Where the write comes down to the load of the PDPT in the candidate state `x`, the row stops or completes with that load (R229). -/
theorem exec_of_writeCr_eq_pdptLoad (hrow : row ∈ movCrRegRows) (mod : BitVec 2) (hc : crAccess p (row.2.2 p cr) s = .ok c)
    (h : s.writeCr c (s.readReg p.rex.isSome row.1 (rmField p r)) = s.pdptLoad x isCr3) :
    (∀ e, s.pdptLoad x isCr3 = .error e → exec (row.2.1 p mod cr r) s = s.stop e) ∧
    (∀ u, s.pdptLoad x isCr3 = .ok u →
      ∃ t, exec (row.2.1 p mod cr r) s = .next t ∧ SameCrs { x with pdpte := u.pdpte } t ∧ SameButCrs s t) := by
  refine ⟨fun e he => exec_of_writeCr_error hrow mod hc (h.trans he), fun u hu => ?_⟩
  obtain ⟨t, ht, hcrs, hframe⟩ := exec_of_writeCr_ok hrow mod hc (h.trans hu)
  rw [pdptLoad_eq hu] at hcrs
  exact ⟨t, ht, hcrs, hframe⟩

end

/-! ## CR2 and CR8 (R219, R223, R228) -/

theorem writeCr8_of_reserved {s : State} {v : Quad} (h : v &&& s.cfg.cr8Reserved ≠ 0) : s.writeCr8 v = .error (.exc (.gp 0)) :=
  if_pos (bne_iff_ne.2 h)

theorem writeCr8_of_clear {s : State} {v : Quad} (h : v &&& s.cfg.cr8Reserved = 0) : s.writeCr8 v = .ok { s with cr8 := v } := by
  rw [State.writeCr8, h]
  rfl

/-- The row of CR8 is one of the table's. -/
theorem movCr8R64_mem : (.b64, fun p mod _ r => .movCr8R64 p mod r, fun _ _ => 8) ∈ movCrRegRows := by
  simp [movCrRegRows]

/-- Settles O54: CR2 takes every value, and CR8 every value without a reserved bit. -/
theorem movCr2Cr8 : Obligations.MovCr2Cr8 := by
  refine ⟨fun row hrow p mod cr r s hl hs hn => ?cr2, ?cr8⟩
  case cr2 =>
    have hc : crAccess p (row.2.2 p cr) s = .ok .cr2 := crAccess_ok_iff.2 ⟨hl, hs, hn, nofun⟩
    obtain ⟨t, ht, hcrs, hframe⟩ := exec_of_writeCr_ok hrow mod hc (r := r) rfl
    exact ⟨t, ht, hcrs.cr2, hcrs.cr0, hcrs.cr3, hcrs.cr4, hcrs.cr8, hcrs.lma, hcrs.pdpte, hframe⟩
  case cr8 =>
    intro p mod r s hl hs i v
    have hc : crAccess p 8 s = .ok .cr8 := crAccess_ok_iff.2 ⟨hl, hs, rfl, nofun⟩
    refine ⟨fun hv => ?reserved, fun hv => ?stored⟩
    case reserved => exact exec_of_writeCr_error movCr8R64_mem mod (cr := 0) hc (writeCr8_of_reserved hv)
    case stored =>
      obtain ⟨t, ht, hcrs, hframe⟩ := exec_of_writeCr_ok movCr8R64_mem mod (cr := 0) hc (writeCr8_of_clear hv)
      exact ⟨t, ht, hcrs.cr8, hcrs.cr0, hcrs.cr2, hcrs.cr3, hcrs.cr4, hcrs.lma, hcrs.pdpte, hframe⟩

/-! ## CR3 (R224) -/

section
variable {s : State} {v : Quad}

theorem writeCr3_of_reserved (hm : s.mode = .long64 ∨ s.mode = .compat) (h : s.cr3Source v &&& cr3Mask s.cfg ≠ 0) :
    s.writeCr3 v = .error (.exc (.gp 0)) := by
  rw [State.writeCr3, if_pos (ia32e_iff.2 hm), if_pos (bne_iff_ne.2 h)]

/-- The value stored is the source in IA-32e mode, where it has no reserved bit, and the source without those bits elsewhere. -/
theorem writeCr3_of_stored {n : Quad}
    (hn : n = if s.mode = .long64 ∨ s.mode = .compat then s.cr3Source v else s.cr3Source v &&& ~~~cr3Mask s.cfg)
    (hclear : n &&& cr3Mask s.cfg = 0) : s.writeCr3 v = s.pdptLoad { s with cr3 := n } true := by
  subst hn
  by_cases hm : s.mode = .long64 ∨ s.mode = .compat
  · rw [if_pos hm] at hclear ⊢
    rw [State.writeCr3, if_pos (ia32e_iff.2 hm), hclear]
    rfl
  · rw [if_neg hm, State.writeCr3, if_neg fun h => hm (ia32e_iff.1 h)]

end

/-- Settles O55: the statement's value and mask are `State.cr3Source` and `cr3Mask`. -/
theorem movCr3 : Obligations.MovCr3 := by
  intro row hrow p mod cr r s hl hs hn i v w mask
  have hc : crAccess p (row.2.2 p cr) s = .ok .cr3 := crAccess_ok_iff.2 ⟨hl, hs, hn, nofun⟩
  refine ⟨fun hm hres => ?reserved, fun n hstored hclear => ?accepted⟩
  case reserved => exact exec_of_writeCr_error hrow mod hc (writeCr3_of_reserved hm hres)
  case accepted =>
    obtain ⟨hstops, hcompletes⟩ := exec_of_writeCr_eq_pdptLoad hrow mod hc (writeCr3_of_stored hstored hclear)
    refine ⟨hstops, fun u hu => ?_⟩
    obtain ⟨t, ht, hcrs, hframe⟩ := hcompletes u hu
    exact ⟨t, ht, hcrs.cr3, hcrs.pdpte, hcrs.cr0, hcrs.cr2, hcrs.cr4, hcrs.cr8, hcrs.lma, hframe⟩

/-! ## CR4 (R225 to R227) -/

/-- A bit is set exactly where the mask of that bit alone meets the value. -/
theorem and_twoPow_ne_zero_iff {w : Nat} {v : BitVec w} {k : Nat} (hk : k < w) :
    v &&& BitVec.twoPow w k ≠ 0 ↔ v.getLsbD k = true := by
  rw [BitVec.and_twoPow]
  cases v.getLsbD k with
  | false => simp
  | true => simp [← BitVec.toNat_inj, Nat.mod_eq_of_lt (Nat.pow_lt_pow_right Nat.one_lt_two hk)]

/-- A value meets the reserved bits of CR4 in the parameter's mask, or in PCIDE or DE on a part that lacks the bit (R225, R226). -/
theorem and_cr4Mask_ne_zero_iff {cfg : Params} {v : Quad} :
    v &&& cr4Mask cfg ≠ 0 ↔
      v &&& cfg.cr4Reserved ≠ 0 ∨ (cfg.hasPcid = false ∧ cr4PCIDE v = true) ∨ (cfg.hasDe = false ∧ cr4DE v = true) := by
  have hpcide : v &&& (0x20000 : Quad) ≠ 0 ↔ cr4PCIDE v = true := and_twoPow_ne_zero_iff (k := 17) (by decide)
  have hde : v &&& (0x8 : Quad) ≠ 0 ↔ cr4DE v = true := and_twoPow_ne_zero_iff (k := 3) (by decide)
  have hor (a b : Quad) : v &&& (a ||| b) ≠ 0 ↔ v &&& a ≠ 0 ∨ v &&& b ≠ 0 := by
    rw [BitVec.and_or_distrib_left, Ne, BitVec.ofNat_eq_ofNat, BitVec.or_eq_zero_iff, not_and_or]
  rw [cr4Mask, hor, hor, or_assoc]
  refine or_congr_right (or_congr ?pcide ?de)
  case pcide => cases cfg.hasPcid <;> simp [← hpcide]
  case de => cases cfg.hasDe <;> simp [← hde]

/-- The faults of a load of CR4 in the words of the rules. -/
theorem cr4Faults_iff {s : State} {v : Quad} :
    s.cr4Faults v = true ↔ v &&& cr4Mask s.cfg ≠ 0 ∨ (¬ (s.mode = .long64 ∨ s.mode = .compat) ∧ cr4PCIDE v = true) ∨
      ((s.mode = .long64 ∨ s.mode = .compat) ∧ cr4PCIDE s.cr4 = false ∧ cr4PCIDE v = true ∧ s.cr3.setWidth 12 ≠ (0 : BitVec 12)) ∨
      ((s.mode = .long64 ∨ s.mode = .compat) ∧ cr4PAE s.cr4 = true ∧ cr4PAE v = false) := by
  have hlow : s.cr3.extractLsb' 0 12 = s.cr3.setWidth 12 := (BitVec.setWidth_eq_extractLsb' (by decide)).symm
  rw [State.cr4Faults, hlow, Bool.or_eq_true, bne_iff_ne, ← ia32e_iff]
  refine or_congr_right ?_
  cases hm : s.ia32e <;> simp [and_assoc]

theorem writeCr4_of_fault {s : State} {v : Quad} (h : s.cr4Faults v = true) : s.writeCr4 v = .error (.exc (.gp 0)) := if_pos h

theorem writeCr4_of_not_fault {s : State} {v : Quad} (h : ¬ s.cr4Faults v = true) :
    s.writeCr4 v = s.pdptLoad { s with cr4 := v } false := if_neg h

/-- Settles O56: `bad` is the model's test, and otherwise the write is the load of the PDPT. -/
theorem movCr4 : Obligations.MovCr4 := by
  intro row hrow p mod cr r s hl hs hn hcr4 i v ia32e bad
  have hc : crAccess p (row.2.2 p cr) s = .ok .cr4 := crAccess_ok_iff.2 ⟨hl, hs, hn, fun _ => hcr4⟩
  have hbad : bad ↔ s.cr4Faults v = true := by
    rw [cr4Faults_iff, and_cr4Mask_ne_zero_iff, or_assoc, or_assoc]
  have hwrite (hok : ¬ bad) := exec_of_writeCr_eq_pdptLoad hrow mod hc (writeCr4_of_not_fault (hok ∘ hbad.2))
  refine ⟨fun hb => ?faults, fun hok => (hwrite hok).1, fun hok u hu => ?stored⟩
  case faults => exact exec_of_writeCr_error hrow mod hc (writeCr4_of_fault (hbad.1 hb))
  case stored =>
    obtain ⟨t, ht, hcrs, hframe⟩ := (hwrite hok).2 u hu
    exact ⟨t, ht, hcrs.cr4, hcrs.pdpte, hcrs.cr0, hcrs.cr2, hcrs.cr3, hcrs.cr8, hcrs.lma, hframe⟩

/-! ## CR0 (R222, R232) -/

/-- The value stored is determined by its bits: reserved ones dropped, ET set where it is fixed. -/
theorem eq_cr0Stored {cfg : Params} {v n : Quad}
    (h : ∀ k, k < 64 → n.getLsbD k = ((v.getLsbD k && !cfg.cr0Reserved.getLsbD k) || (k == 4 && cfg.cr0EtFixed))) :
    n = cr0Stored cfg v :=
  BitVec.eq_of_getLsbD_eq fun k hk => (h k hk).trans (cr0Stored_bit cfg v k hk).symm

/-- The invalid combinations (R222, U8). -/
theorem cr0Invalid_iff {cfg : Params} {n : Quad} :
    cr0Invalid cfg n = true ↔ (cr0PG n = true ∧ cr0PE n = false) ∨ (cr0CD n = false ∧ cr0NW n = true) ∨
      ∃ c ∈ cfg.cr0InvalidExtra, n &&& c.1 = c.2 := by
  simp only [cr0Invalid, Bool.or_eq_true, Bool.and_eq_true, Bool.not_eq_true', List.any_eq_true, beq_iff_eq, or_assoc]

/-- The faults of the stored value of CR0 in the words of the rules: a combination, leaving IA-32e mode, entering it (R222, R232). -/
theorem cr0Faults_iff {s : State} {n : Quad} :
    s.cr0Faults n = true ↔ cr0Invalid s.cfg n = true ∨
      (s.mode = .long64 ∧ cr0PG s.cr0 = true ∧ cr0PG n = false) ∨
      (s.mode = .compat ∧ cr0PG s.cr0 = true ∧ cr0PG n = false ∧ cr4PCIDE s.cr4 = true) ∨
      ((s.cfg.arch64 && s.lme) = true ∧ cr0PG s.cr0 = false ∧ cr0PG n = true ∧ (cr4PAE s.cr4 = false ∨ s.cs.hidden.d.long = true)) := by
  simp only [State.cr0Faults, State.longEnabled, Bool.or_eq_true, Bool.and_eq_true, Bool.not_eq_true', beq_iff_eq, or_assoc, and_assoc]

section
variable {s : State} {v : Quad}

/-- In 64-bit mode a 1 in bits 63:32 of the source faults, where the parameter says so (U7, entry 19). -/
def State.highBitsFault (s : State) (v : Quad) : Prop :=
  s.mode = .long64 ∧ s.cfg.cr0HighFaults = true ∧ v.extractLsb' 32 32 ≠ 0

/-- The first test of `State.writeCr0`. -/
theorem highBitsFault_iff :
    (s.mode == .long64 && s.cfg.cr0HighFaults && v.extractLsb' 32 32 != 0) = true ↔ s.highBitsFault v := by
  simp only [State.highBitsFault, Bool.and_eq_true, beq_iff_eq, bne_iff_ne, and_assoc]

theorem writeCr0_of_fault (h : s.highBitsFault v ∨ s.cr0Faults (cr0Stored s.cfg v) = true) : s.writeCr0 v = .error (.exc (.gp 0)) := by
  rcases h with hhigh | hvalue
  · rw [State.writeCr0, if_pos (highBitsFault_iff.2 hhigh)]
  · rw [State.writeCr0, if_pos hvalue, ite_self]

theorem writeCr0_of_not_fault (h : ¬ (s.highBitsFault v ∨ s.cr0Faults (cr0Stored s.cfg v) = true)) :
    s.writeCr0 v = s.pdptLoad (s.withCr0 (cr0Stored s.cfg v)) false := by
  obtain ⟨hhigh, hvalue⟩ := not_or.1 h
  rw [State.writeCr0, if_neg (hhigh ∘ highBitsFault_iff.1), if_neg hvalue]

end

/-- EFER.LMA follows CR0.PG where the write changes it, and never without Intel 64 (R232; 00_scope.md R6). -/
theorem withCr0_lma_eq (s : State) (n : Quad) :
    (s.withCr0 n).lma = if cr0PG s.cr0 = cr0PG n then s.lma else s.cfg.arch64 && s.lme && cr0PG n := by
  by_cases h : cr0PG s.cr0 = cr0PG n <;> simp [State.longEnabled, h]

/-- Settles O53: `n` is the value stored, `bad` the model's test, and otherwise the write is the load of the PDPT. -/
theorem movCr0 : Obligations.MovCr0 := by
  intro row hrow p mod cr r s n hl hs hn hbits i bad
  obtain rfl := eq_cr0Stored hbits
  have hc : crAccess p (row.2.2 p cr) s = .ok .cr0 := crAccess_ok_iff.2 ⟨hl, hs, hn, nofun⟩
  have hbad : bad ↔ s.highBitsFault (s.readReg p.rex.isSome row.1 (rmField p r)) ∨
      s.cr0Faults (cr0Stored s.cfg (s.readReg p.rex.isSome row.1 (rmField p r))) = true := by
    rw [cr0Faults_iff, cr0Invalid_iff, or_assoc, or_assoc, State.highBitsFault]
  have hwrite (hok : ¬ bad) := exec_of_writeCr_eq_pdptLoad hrow mod hc (writeCr0_of_not_fault (hok ∘ hbad.2))
  refine ⟨fun hb => ?faults, fun hok => (hwrite hok).1, fun hok u hu => ?stored⟩
  case faults => exact exec_of_writeCr_error hrow mod hc (writeCr0_of_fault (hbad.1 hb))
  case stored =>
    obtain ⟨t, ht, hcrs, hframe⟩ := (hwrite hok).2 u hu
    exact ⟨t, ht, hcrs.cr0, hcrs.lma.trans (withCr0_lma_eq s _), hcrs.pdpte, hcrs.cr2, hcrs.cr3, hcrs.cr4, hcrs.cr8, hframe⟩

end Sys2Proof.Machine
end

section
/-! PROOF. Debug registers: the checks of an access in their order, reads, and writes with the fixed bits of DR6 and DR7. -/

namespace Sys2Proof.Machine

/-! ## The checks of an access, in the order of 43_mov_dr.md R260 -/

section
variable {s : State} {p : Prefixes} {n : BitVec 3} {d : DbgReg}

theorem drAccess_of_v86 (h : s.mode = .v86) : drAccess p n s = .error (.exc (.gp 0)) := by
  rw [drAccess, guardV86_error_iff.2 ⟨h, rfl⟩, error_bind]

/-- Past virtual-8086 mode LOCK is next. -/
theorem drAccess_of_lock (hm : s.mode ≠ .v86) (h : p.lock = true) : drAccess p n s = .error (.exc .ud) := by
  rw [drAccess, guardV86_guardLock_of_lock h, if_neg hm]

/-- Past virtual-8086 mode and LOCK, the register is named, and CPL and general detect are asked for after it. -/
theorem drAccess_of_not_lock (hm : s.mode ≠ .v86) (h : p.lock = false) :
    drAccess p n s = s.drOf p n >>= fun d => s.guardCpl0 >>= fun _ => s.guardDetect >>= fun _ => .ok d := by
  rw [drAccess, (guardV86_ok_iff (u := ())).2 hm, ok_bind, (guardLock_ok_iff (u := ())).2 h, ok_bind]

/-- LOCK, REX.R, and DR4 or DR5 with debug extensions give the same #UD (R252, R260). -/
theorem drAccess_of_undefined (hm : s.mode ≠ .v86)
    (h : p.lock = true ∨ p.rexR = true ∨ drTarget s.debugExtensions n = none) : drAccess p n s = .error (.exc .ud) := by
  cases hl : p.lock with
  | true => exact drAccess_of_lock hm hl
  | false =>
    have hn : p.rexR = true ∨ drTarget s.debugExtensions n = none := h.resolve_left (by simp [hl])
    rw [drAccess_of_not_lock hm hl, drOf_error_iff.2 ⟨hn, rfl⟩, error_bind]

/-- CPL goes before general detect (entry 25). -/
theorem drAccess_of_cpl (hm : s.mode ≠ .v86) (hl : p.lock = false) (hd : s.drOf p n = .ok d) (h : s.privilege ≠ 0) :
    drAccess p n s = .error (.exc (.gp 0)) := by
  rw [drAccess_of_not_lock hm hl, hd, ok_bind, guardCpl0_error_iff.2 ⟨h, rfl⟩, error_bind]

/-- General detect comes last (R259). -/
theorem drAccess_of_detect (hs : s.supervisor) (hl : p.lock = false) (hd : s.drOf p n = .ok d) (h : dr7GD s.dr7 = true) :
    drAccess p n s = .error (.exc .db) := by
  obtain ⟨hm, hpriv⟩ := supervisor_iff.1 hs
  rw [drAccess_of_not_lock hm hl, hd, ok_bind, (guardCpl0_ok_iff (u := ())).2 hpriv, ok_bind,
    guardDetect_error_iff.2 ⟨h, rfl⟩, error_bind]

end

/-! ## The rows as the shared operations (R254 to R257) -/

/-- A row of `movRegDrRows` and `movDrRegRows`: the operand width and the constructor. -/
abbrev DrRow := Width × (Prefixes → BitVec 2 → BitVec 3 → BitVec 3 → Instr)

/-- Opcode 0F 21. -/
theorem exec_movRegDrRows : ∀ row ∈ movRegDrRows, ∀ (p : Prefixes) (mod : BitVec 2) (n r : BitVec 3) (s : State),
    exec (row.2 p mod n r) s = movRegDr (row.2 p mod n r) p row.1 n r s := by
  intro row hrow
  fin_cases hrow
  all_goals exact fun _ _ _ _ _ => rfl

section
variable {row : DrRow} {p : Prefixes} {n r : BitVec 3} {s : State} {d : DbgReg} {e : Stop}

/-- The 32-bit write stops as its checks do, and so does the 64-bit one. -/
theorem execMovDrR32_stop (mod : BitVec 2) (h : drAccess p n s = .error e) : execMovDrR32 p mod n r s = s.stop e := by
  rw [execMovDrR32, h, error_bind, finish_error]

theorem execMovDrR64_stop (mod : BitVec 2) (h : drAccess p n s = .error e) : execMovDrR64 p mod n r s = s.stop e := by
  rw [execMovDrR64, h, error_bind, finish_error]

/-- The 64-bit write whose checks pass stops as the write itself does. -/
theorem execMovDrR64_write_stop (mod : BitVec 2) (hd : drAccess p n s = .ok d)
    (h : s.writeDr64 d (s.readReg p.rex.isSome .b64 (rmField p r)) = .error e) : execMovDrR64 p mod n r s = s.stop e := by
  rw [execMovDrR64, hd, ok_bind, h, error_bind, finish_error]

/-- Opcode 0F 23 stops as its checks do. -/
theorem exec_movDrRegRows_stop (hrow : row ∈ movDrRegRows) (mod : BitVec 2) (h : drAccess p n s = .error e) :
    exec (row.2 p mod n r) s = s.stop e := by
  fin_cases hrow
  · exact execMovDrR32_stop mod h
  · exact execMovDrR64_stop mod h

/-- Opcode 0F 23 completes where its checks pass and bits 63:32 of a value for DR6 or DR7 are clear, as they are in the 32-bit row. -/
theorem exec_movDrRegRows_next (hrow : row ∈ movDrRegRows) (mod : BitVec 2) (hd : drAccess p n s = .ok d)
    (hv : d = .dr6 ∨ d = .dr7 → (s.readReg p.rex.isSome row.1 (rmField p r)).extractLsb' 32 32 = 0) :
    exec (row.2 p mod n r) s = .next (retire (row.2 p mod n r) s
      (s.writeDr d (s.readReg p.rex.isSome row.1 (rmField p r))).drawFlags false false) := by
  fin_cases hrow
  · exact execMovDrR32_next_iff.2 ⟨d, hd, rfl⟩
  · exact execMovDrR64_next_iff.2 ⟨d, hd, hv, rfl⟩

/-- A row of either opcode stops as its checks do. -/
theorem exec_of_drAccess_error (hrow : row ∈ movRegDrRows ++ movDrRegRows) (mod : BitVec 2) (h : drAccess p n s = .error e) :
    exec (row.2 p mod n r) s = s.stop e := by
  rcases List.mem_append.1 hrow with hread | hwrite
  · rw [exec_movRegDrRows row hread, movRegDr_stop h]
  · exact exec_movDrRegRows_stop hwrite mod h

/-- The 64-bit write whose checks pass raises #GP(0) for a 1 in bits 63:32 of DR6 or DR7 (R257). -/
theorem exec_movDrR64_of_highBits (mod : BitVec 2) (hd : drAccess p n s = .ok d) (h67 : d = .dr6 ∨ d = .dr7)
    (h : (s.x (rmField p r)).extractLsb' 32 32 ≠ 0) : exec (.movDrR64 p mod n r) s = .fault (s.raise (.gp 0)) :=
  execMovDrR64_write_stop mod hd (if_pos ⟨h67, h⟩)

end

/-- Settles O58: each clause is one of the checks with those before it passed, or, after all of them, the test of bits 63:32. -/
theorem drAccessChecks : Obligations.DrAccessChecks := by
  intro row hrow p mod n r s i de
  have hnamed {d : DbgReg} (hrex : p.rexR = false) (hd : drTarget de n = some d) : s.drOf p n = .ok d := drOf_ok_iff.2 ⟨hrex, hd⟩
  refine ⟨fun hm => ?v86, fun hm hud => ?undefined, fun hm hreal hl hrex hn hcpl => ?cpl, fun hs hl hrex hn hgd => ?detect,
    fun hs hl hrex hgd hi h67 hhigh => ?highBits⟩
  case v86 => exact exec_of_drAccess_error hrow mod (drAccess_of_v86 hm)
  case undefined => exact exec_of_drAccess_error hrow mod (drAccess_of_undefined hm hud)
  case cpl =>
    obtain ⟨d, hd⟩ := Option.ne_none_iff_exists'.1 hn
    have hpriv : s.privilege ≠ 0 := by rwa [privilege_eq_cpl hreal hm]
    exact exec_of_drAccess_error hrow mod (drAccess_of_cpl hm hl (hnamed hrex hd) hpriv)
  case detect =>
    obtain ⟨d, hd⟩ := Option.ne_none_iff_exists'.1 hn
    exact exec_of_drAccess_error hrow mod (drAccess_of_detect hs hl (hnamed hrex hd) hgd)
  case highBits =>
    obtain ⟨d, hd, h67⟩ : ∃ d, drTarget de n = some d ∧ (d = .dr6 ∨ d = .dr7) :=
      h67.elim (fun h => ⟨_, h, .inl rfl⟩) fun h => ⟨_, h, .inr rfl⟩
    rw [hi]
    exact exec_movDrR64_of_highBits mod (drAccess_ok_iff.2 ⟨hl, hrex, hs, hgd, hd⟩) h67 hhigh

/-! ## Reading a debug register (R254, R255, R258) -/

namespace DrMoves

/-- Settles O59: the rows are `movRegDr`, whose checks pass, and which writes the debug register to the general one. -/
theorem movRegDr : Obligations.MovRegDr := by
  intro row hrow p mod n r s d hl hrex hs hgd hd
  rw [exec_movRegDrRows row hrow]
  exact ⟨_, movRegDr_next_iff.2 ⟨d, drAccess_ok_iff.2 ⟨hl, hrex, hs, hgd, hd⟩, rfl⟩, written_retire_drawFlags ..⟩

end DrMoves

/-! ## Writing a debug register (R256, R257, R261) -/

/-- The register written holds the value, DR6 and DR7 with their fixed bits (entry 21). -/
theorem dr_writeDr_self (s : State) (d : DbgReg) (v : Quad) :
    (s.writeDr d v).dr d = match d with
      | .dr6 => FixedBits.apply s.cfg.dr6Fixed v
      | .dr7 => FixedBits.apply s.cfg.dr7Fixed v
      | .dr0 | .dr1 | .dr2 | .dr3 => v := by
  cases d <;> rfl

/-- The other debug registers keep their values. -/
theorem dr_writeDr_ne {d d' : DbgReg} (h : d' ≠ d) (s : State) (v : Quad) : (s.writeDr d v).dr d' = s.dr d' := by
  cases d <;> cases d'
  case dr0.dr0 | dr1.dr1 | dr2.dr2 | dr3.dr3 | dr6.dr6 | dr7.dr7 => exact absurd rfl h
  all_goals rfl

/-- Retiring an instruction, and drawing the status flags, write no debug register. -/
theorem dr_retire_drawFlags (i : Instr) (s u : State) (b ls : Bool) (d : DbgReg) : (retire i s u.drawFlags b ls).dr d = u.dr d := by
  cases d <;> rfl

/-- A completed write of a debug register leaves everything else alone but the status flags. -/
theorem sameButDrs_retire (i : Instr) (s : State) (d : DbgReg) (v : Quad) (b ls : Bool) :
    SameButDrs s (retire i s (s.writeDr d v).drawFlags b ls) where
  gprs m _ := x_writeDr _ _ d m
  flags k hk := by rw [retire_flags, drawFlags_flags, withStatus_keeps _ _ k hk, writeDr_flags]
  segs := by constructor <;> simp
  crs := by constructor <;> simp
  fixed := by constructor <;> simp
  mem a := by simp

/-- Settles O60: the rows write the debug register as `State.writeDr` does, once the checks and the test of bits 63:32 pass. -/
theorem movDrReg : Obligations.MovDrReg := by
  intro row hrow p mod n r s d hl hrex hs hgd hd v hv
  have haccess : drAccess p n s = .ok d := drAccess_ok_iff.2 ⟨hl, hrex, hs, hgd, hd⟩
  refine ⟨_, exec_movDrRegRows_next hrow mod haccess hv, sameButDrs_retire .., fun d' hne => ?others, ?written⟩
  case others => rw [dr_retire_drawFlags, dr_writeDr_ne hne]
  case written =>
    rw [dr_retire_drawFlags, dr_writeDr_self]
    rfl

end Sys2Proof.Machine
end

section
/-! PROOF. Exceptions: the error code in and outside real-address mode, the fault that each exception raises, and what a fault leaves. -/

namespace Sys2Proof.Machine

section
variable {s : State}

/-! ## Error codes (60_exceptions.md R270, R273, R274) -/

theorem errorCode_of_not_real (h : s.mode ≠ .real) (c : BitVec 16) : s.errorCode c = some c := if_neg h

/-- A fault of an exception with an error code carries none exactly in real-address mode. -/
theorem errorCode_eq_none_iff {c : BitVec 16} : s.errorCode c = none ↔ s.mode = .real := by
  by_cases h : s.mode = .real <;> simp [State.errorCode, h]

/-- Alignment checking never counts in real-address mode (20_memory.md R72), so #AC always has its code. -/
theorem not_real_of_alignChecked (h : s.alignChecked = true) : s.mode ≠ .real := by
  obtain ⟨-, -, hv86 | ⟨hreal, -⟩⟩ := alignChecked_iff.1 h
  · simp [hv86]
  · exact hreal

end

/-! ## The fault of an instruction (R270 to R276, R291) -/

/-- Settles O17: an instruction faults by raising one of its exceptions, and every raised exception carries `State.atFault`; its code is
`State.errorCode`, and #AC is only raised where alignment is checked. -/
theorem faultRecord : Obligations.FaultRecord := by
  constructor
  case left =>
    intro i s f h
    obtain ⟨e, rfl, hexec⟩ := exec_fault h
    refine ⟨raise_state s e, ?_⟩
    cases e with
    | gp c | ss c | np c => exact errorCode_eq_none_iff
    | ac c =>
      obtain ⟨rfl, hchecked⟩ := hexec
      have hreal : s.mode ≠ .real := not_real_of_alignChecked hchecked
      exact ⟨hreal, errorCode_of_not_real hreal 0⟩
    | pf | ud | db => trivial
  case right =>
    intro s
    refine ⟨rfl, rfl, fun _ _ => rfl, fun _ => rfl, fun _ => rfl,
      fun c hreal => congrArg (Fault.np · s.atFault) (errorCode_of_not_real hreal c),
      fun c hreal => congrArg (Fault.ac · s.atFault) (errorCode_of_not_real hreal c),
      ?vector, fun _ => rfl, fun _ => rfl⟩
    case vector =>
      intro e
      cases e <;> rfl

end Sys2Proof.Machine
end

section
/-! PROOF. The well-formedness of a launch state (70_reset_and_hazards.md R311): it holds at reset and every completed step keeps it. -/

namespace Sys2Proof.Machine

/-- Settles O12: the reset values field by field; memory at reset is empty. -/
theorem resetLaunchWf : Obligations.ResetLaunchWf :=
  ⟨launchOk_iff.1 (by decide), ⟨by decide, by decide, by decide⟩, rfl, by decide, reset_mem_wf⟩

/-! ## The mode of a state whose EFER.LMA follows EFER.LME and CR0.PG (10_state.md R34; 42_mov_cr.md R232) -/

section
variable {s : State}

/-- IA-32e mode is protection with EFER.LMA as the rules read it (R34). -/
theorem ia32e_mode_iff : (s.mode = .long64 ∨ s.mode = .compat) ↔ cr0PE s.cr0 = true ∧ s.longActive = true := by
  cases hpe : cr0PE s.cr0 with
  | false => simp [mode_of_real hpe]
  | true =>
    cases hlma : s.longActive with
    | false => rw [mode_of_legacy hpe hlma]; split <;> simp
    | true => rw [mode_of_longActive hpe hlma]; split <;> simp

/-- Of the two submodes the L bit of CS selects 64-bit mode (R34). -/
theorem long64_mode_iff : s.mode = .long64 ↔ (s.mode = .long64 ∨ s.mode = .compat) ∧ s.cs.hidden.d.long = true := by
  refine ⟨fun hm => ⟨.inl hm, ?_⟩, fun ⟨hm, hlong⟩ => ?_⟩
  · obtain ⟨hpe, hlma⟩ := ia32e_mode_iff.1 (.inl hm)
    rw [mode_of_longActive hpe hlma] at hm
    by_contra hlong
    simp [hlong] at hm
  · obtain ⟨hpe, hlma⟩ := ia32e_mode_iff.1 hm
    rw [mode_of_longActive hpe hlma, if_pos hlong]

/-- With EFLAGS.VM clear there is no virtual-8086 mode (R34). -/
theorem mode_ne_v86_of_vm (hvm : flagsVM s.flags = false) : s.mode ≠ .v86 := by
  cases hpe : cr0PE s.cr0 with
  | false => simp [mode_of_real hpe]
  | true =>
    cases hlma : s.longActive with
    | false => simp [mode_of_legacy hpe hlma, hvm]
    | true => rw [mode_of_longActive hpe hlma]; split <;> simp

/-- The part of the invariant that ties the mode to EFER.LME and CR0.PG. -/
structure PagingWf (s : State) : Prop where
  cr0Valid : cr0Invalid s.cfg s.cr0 = false
  lmaFollows : s.lma = (s.lme && cr0PG s.cr0)
  arch : s.cfg.arch64 = false → s.lme = false

theorem LaunchWf.pagingWf (h : LaunchWf s) : PagingWf s := ⟨h.cr0Valid, h.lmaFollows, h.arch⟩

/-- A valid CR0 has paging only with protection (R222). -/
theorem cr0PE_of_cr0PG {cfg : Params} {n : Quad} (hn : cr0Invalid cfg n = false) (hpg : cr0PG n = true) : cr0PE n = true := by
  by_contra hpe
  exact Bool.eq_false_iff.1 hn (cr0Invalid_iff.2 (.inl ⟨hpg, by simpa using hpe⟩))

/-- EFER.LME is set only on a part with Intel 64 (00_scope.md R6). -/
theorem PagingWf.arch_and_lme (h : PagingWf s) (hlme : s.lme = true) : (s.cfg.arch64 && s.lme) = true := by
  cases harch : s.cfg.arch64 with
  | true => exact hlme
  | false => exact absurd (h.arch harch) (by simp [hlme])

/-- IA-32e mode is paging with EFER.LME (R232). -/
theorem PagingWf.ia32e_iff (h : PagingWf s) :
    (s.mode = .long64 ∨ s.mode = .compat) ↔ s.lme = true ∧ cr0PG s.cr0 = true := by
  rw [ia32e_mode_iff]
  constructor
  · rintro ⟨-, hactive⟩
    simp only [State.longActive, h.lmaFollows, Bool.and_eq_true] at hactive
    exact hactive.2
  · rintro ⟨hlme, hpg⟩
    have harch : s.cfg.arch64 = true := by
      by_contra ha
      simp [h.arch (by simpa using ha)] at hlme
    exact ⟨cr0PE_of_cr0PG h.cr0Valid hpg, by simp [State.longActive, h.lmaFollows, harch, hlme, hpg]⟩

theorem PagingWf.long64_iff (h : PagingWf s) :
    s.mode = .long64 ↔ (s.lme = true ∧ cr0PG s.cr0 = true) ∧ s.cs.hidden.d.long = true := by
  rw [long64_mode_iff, h.ia32e_iff]

end

/-! ## Writes that leave the mode alone -/

section
variable {s u : State}

theorem launchWf_setX (n : BitVec 4) (v : Quad) (h : LaunchWf s) : LaunchWf (s.setX n v) := { h with }

/-- A register write of any width sets one general register. -/
theorem exists_writeReg_eq_setX (s : State) (rex : Bool) (w : Width) (n : BitVec 4) (v : Quad) :
    ∃ m x, s.writeReg rex w n v = s.setX m x := by
  cases w with
  | b8 =>
    rw [State.writeReg, State.writeReg8]
    split <;> exact ⟨_, _, rfl⟩
  | b16 | b32 | b64 => exact ⟨_, _, rfl⟩

theorem launchWf_writeReg (rex : Bool) (w : Width) (n : BitVec 4) (v : Quad) (h : LaunchWf s) :
    LaunchWf (s.writeReg rex w n v) := by
  obtain ⟨m, x, heq⟩ := exists_writeReg_eq_setX s rex w n v
  exact heq ▸ launchWf_setX m x h

theorem launchWf_writeAll (cells : List Host.Cell) (h : LaunchWf s) : LaunchWf { s with mem := Memory.writeAll s.mem cells } :=
  { h with memory := writeAll_wf cells h.memory }

theorem launchWf_storeAt (pas : List Nat) (v : Quad) (h : LaunchWf s) : LaunchWf (s.storeAt pas v) := launchWf_writeAll _ h

/-- The mode and the offset space depend on CS alone of the segment registers. -/
theorem launchWf_setSeg {g : SegReg} (hg : g ≠ .cs) (r : SegmentRegister) (h : LaunchWf s) : LaunchWf (s.setSeg g r) := by
  cases g with
  | cs => exact absurd rfl hg
  | es | ss | ds | fs | gs => exact { h with }

theorem mode_setSeg {g : SegReg} (hg : g ≠ .cs) (r : SegmentRegister) : (s.setSeg g r).mode = s.mode := by
  cases g with
  | cs => exact absurd rfl hg
  | es | ss | ds | fs | gs => rfl

theorem launchWf_loadSeg {g : SegReg} {sel : Selector} (hg : g ≠ .cs) (h : LaunchWf s) (hu : s.loadSeg g sel = .ok u) :
    LaunchWf u := by
  obtain ⟨r, cells, _, rfl⟩ := loadSeg_ok hu
  exact launchWf_setSeg hg r (launchWf_writeAll cells h)

theorem mode_loadSeg {g : SegReg} {sel : Selector} (hg : g ≠ .cs) (hu : s.loadSeg g sel = .ok u) : u.mode = s.mode := by
  obtain ⟨r, cells, _, rfl⟩ := loadSeg_ok hu
  exact mode_setSeg hg r

/-- VM is none of the six status flags (10_state.md R28). -/
theorem flagsVM_drawFlags (s : State) : flagsVM s.drawFlags.flags = flagsVM s.flags := withStatus_keeps _ _ 17 (by decide)

theorem mode_drawFlags (s : State) : s.drawFlags.mode = s.mode := mode_congr rfl rfl rfl (flagsVM_drawFlags s) rfl

theorem launchWf_drawFlags (h : LaunchWf s) : LaunchWf s.drawFlags := by
  have hm : s.drawFlags.mode = s.mode := mode_drawFlags s
  exact { h with
    vm := by rw [flagsVM_drawFlags, hm]; exact h.vm
    lma := hm ▸ h.lma
    cplReal := hm ▸ h.cplReal
    cplV86 := hm ▸ h.cplV86
    ia32e := hm ▸ h.ia32e
    pcide := hm ▸ h.pcide
    pcHigh := hm ▸ h.pcHigh
    pcCanonical := hm ▸ h.pcCanonical }

/-- The value that DR6 or DR7 takes has bits 63:32 clear where the source and the fixed bits have (43_mov_dr.md R261). -/
theorem fixedBits_apply_high {f : FixedBits} {v : Quad} (hf : f.value.extractLsb' 32 32 = 0) (hv : v.extractLsb' 32 32 = 0) :
    (FixedBits.apply f v).extractLsb' 32 32 = 0 := by
  rw [Machine.FixedBits.apply, BitVec.extractLsb'_or, BitVec.extractLsb'_and, hf, hv]
  simp

theorem launchWf_writeDr {d : DbgReg} {v : Quad} (hv : d = .dr6 ∨ d = .dr7 → v.extractLsb' 32 32 = 0) (h : LaunchWf s) :
    LaunchWf (s.writeDr d v) := by
  cases d with
  | dr0 | dr1 | dr2 | dr3 => exact { h with }
  | dr6 => exact { h with dr6 := fixedBits_apply_high h.params.dr6 (hv (.inl rfl)) }
  | dr7 => exact { h with dr7 := fixedBits_apply_high h.params.dr7 (hv (.inr rfl)) }

end

/-! ## Writes of control registers (42_mov_cr.md R222 to R232) -/

section
variable {s t u : State} {n v : Quad}

theorem launchWf_pdptLoad {isCr3 : Bool} (h : LaunchWf t) (hu : s.pdptLoad t isCr3 = .ok u) : LaunchWf u := by
  rcases pdptLoad_ok hu with rfl | rfl
  · exact h
  · exact { h with }

theorem mode_pdptLoad {isCr3 : Bool} (hu : s.pdptLoad t isCr3 = .ok u) : u.mode = t.mode := by
  rcases pdptLoad_ok hu with rfl | rfl <;> rfl

/-- What a value of CR0 that does not fault satisfies: it is valid, it keeps paging in 64-bit mode, and in compatibility mode with PCIDs,
and it enters IA-32e mode only with PAE and outside a 64-bit code segment (R222, R232). -/
theorem of_cr0Faults_eq_false (hn : s.cr0Faults n = false) :
    cr0Invalid s.cfg n = false ∧
    (s.mode = .long64 → cr0PG s.cr0 = true → cr0PG n = true) ∧
    (s.mode = .compat → cr0PG s.cr0 = true → cr4PCIDE s.cr4 = true → cr0PG n = true) ∧
    ((s.cfg.arch64 && s.lme) = true → cr0PG s.cr0 = false → cr0PG n = true →
      cr4PAE s.cr4 = true ∧ s.cs.hidden.d.long = false) := by
  have hnot := mt cr0Faults_iff.2 (Bool.eq_false_iff.1 hn)
  grind

theorem pagingWf_withCr0 (h : PagingWf s) (hn : s.cr0Faults n = false) : PagingWf (s.withCr0 n) where
  cr0Valid := (of_cr0Faults_eq_false hn).1
  arch := h.arch
  lmaFollows := by
    rw [withCr0_lma_eq]
    split
    next heq => exact h.lmaFollows.trans (by rw [heq]; rfl)
    next =>
      show (s.cfg.arch64 && s.lme && cr0PG n) = (s.lme && cr0PG n)
      cases harch : s.cfg.arch64 with
      | true => rfl
      | false => rw [h.arch harch]; rfl

/-- A load of CR0 neither enters nor leaves 64-bit mode: leaving it faults, and entering IA-32e mode with a 64-bit code segment does
(R222, R232). -/
theorem withCr0_long64_iff (h : PagingWf s) (hn : s.cr0Faults n = false) : (s.withCr0 n).mode = .long64 ↔ s.mode = .long64 := by
  obtain ⟨-, hleave, -, henter⟩ := of_cr0Faults_eq_false hn
  rw [(pagingWf_withCr0 h hn).long64_iff]
  constructor
  · rintro ⟨⟨hlme, hpg⟩, hlong⟩
    have hpaging : cr0PG s.cr0 = true := by
      by_contra hoff
      obtain ⟨-, hnotLong⟩ := henter (h.arch_and_lme hlme) (by simpa using hoff) hpg
      exact Bool.eq_false_iff.1 hnotLong hlong
    exact h.long64_iff.2 ⟨⟨hlme, hpaging⟩, hlong⟩
  · intro hm
    obtain ⟨⟨hlme, hpaging⟩, hlong⟩ := h.long64_iff.1 hm
    exact ⟨⟨hlme, hleave hm hpaging⟩, hlong⟩

/-- In IA-32e mode PAE is on: it was on before, or the load that enters the mode asks for it (R232). -/
theorem withCr0_pae (h : LaunchWf s) (hn : s.cr0Faults n = false) (hlme : s.lme = true) (hpg : cr0PG n = true) :
    cr4PAE s.cr4 = true := by
  obtain ⟨-, -, -, henter⟩ := of_cr0Faults_eq_false hn
  cases hpaging : cr0PG s.cr0 with
  | true => exact (h.ia32e (h.pagingWf.ia32e_iff.2 ⟨hlme, hpaging⟩)).1
  | false => exact (henter (h.pagingWf.arch_and_lme hlme) hpaging hpg).1

/-- With CR4.PCIDE set the state is in IA-32e mode, where turning paging off faults (R222). -/
theorem withCr0_paging_of_pcide (h : LaunchWf s) (hn : s.cr0Faults n = false) (hpcide : cr4PCIDE s.cr4 = true) :
    s.lme = true ∧ cr0PG n = true := by
  obtain ⟨-, hlong64, hcompat, -⟩ := of_cr0Faults_eq_false hn
  have hm : s.mode = .long64 ∨ s.mode = .compat := h.pcide hpcide
  obtain ⟨hlme, hpaging⟩ := h.pagingWf.ia32e_iff.1 hm
  exact ⟨hlme, hm.elim (hlong64 · hpaging) (hcompat · hpaging hpcide)⟩

/-- Where MOV CR may run, VM is clear and CPL is 0 (R211). -/
theorem vm_cpl_of_supervisor (h : LaunchConditions s) (hs : s.supervisor) : flagsVM s.flags = false ∧ s.cpl = 0 := by
  obtain ⟨hv86, hcpl⟩ := hs
  exact ⟨by simpa using mt h.vm hv86, (em (s.mode = .real)).elim h.cplReal hcpl⟩

/-- The mode conditions follow from EFER.LME and CR0.PG, those on VM and CPL from the privilege that MOV CR needs, and `pc` still fits. -/
theorem launchWf_withCr0 (h : LaunchWf s) (hs : s.supervisor) (hn : s.cr0Faults n = false) (hclear : n &&& s.cfg.cr0Reserved = 0) :
    LaunchWf (s.withCr0 n) := by
  obtain ⟨hvm, hcpl⟩ := vm_cpl_of_supervisor h.toLaunchConditions hs
  have hp : PagingWf (s.withCr0 n) := pagingWf_withCr0 h.pagingWf hn
  have hlong64 : (s.withCr0 n).mode = .long64 ↔ s.mode = .long64 := withCr0_long64_iff h.pagingWf hn
  exact { h with
    vm := fun hset => absurd hset (Bool.eq_false_iff.1 hvm)
    lma := fun hlma => hp.ia32e_iff.2 (Bool.and_eq_true_iff.1 (hp.lmaFollows ▸ hlma))
    cplReal := fun _ => hcpl
    cplV86 := fun hv86 => absurd hv86 (mode_ne_v86_of_vm hvm)
    cr0Valid := hp.cr0Valid
    cr0Clear := hclear
    ia32e := fun hm => by
      obtain ⟨hlme, hpg⟩ := hp.ia32e_iff.1 hm
      have hpae : cr4PAE s.cr4 = true := withCr0_pae h hn hlme hpg
      exact ⟨hpae, hpg⟩
    pcide := fun hpcide => by
      have hpaging : s.lme = true ∧ cr0PG n = true := withCr0_paging_of_pcide h hn hpcide
      exact hp.ia32e_iff.2 hpaging
    pcHigh := fun hm => h.pcHigh (hm ∘ hlong64.2)
    pcCanonical := fun hm => h.pcCanonical (hlong64.1 hm)
    lmaFollows := hp.lmaFollows }

/-- The stored value has no reserved bit: where ET is fixed, ET is not reserved (00_scope.md R8, R10). -/
theorem cr0Stored_and_reserved {cfg : Params} (h : ParamsWf cfg) (v : Quad) : cr0Stored cfg v &&& cfg.cr0Reserved = 0 := by
  refine BitVec.eq_of_getLsbD_eq fun k hk => ?_
  rw [BitVec.getLsbD_and, cr0Stored_bit cfg v k hk]
  by_cases hk4 : k = 4
  · subst hk4
    have het : cfg.cr0EtFixed = true → cfg.cr0Reserved.getLsbD 4 = false := h.et
    grind
  · simp [hk4]

/-- The value of CR4 that does not fault has no reserved bit, keeps PAE in IA-32e mode, and sets PCIDE there alone (R225 to R227). -/
theorem of_cr4Faults_eq_false (hv : s.cr4Faults v = false) :
    v &&& cr4Mask s.cfg = 0 ∧ (s.ia32e = true → cr4PAE s.cr4 = true → cr4PAE v = true) ∧ (cr4PCIDE v = true → s.ia32e = true) := by
  unfold State.cr4Faults at hv
  grind

theorem launchWf_withCr4 (h : LaunchWf s) (hv : s.cr4Faults v = false) : LaunchWf { s with cr4 := v } := by
  obtain ⟨hclear, hpae, hpcide⟩ := of_cr4Faults_eq_false hv
  exact { h with
    cr4Clear := hclear
    ia32e := fun hm => ⟨hpae (ia32e_iff.2 hm) (h.ia32e hm).1, (h.ia32e hm).2⟩
    pcide := fun hset => ia32e_iff.1 (hpcide hset) }

theorem launchWf_writeCr {c : CtlReg} (h : LaunchWf s) (hs : s.supervisor) (hu : s.writeCr c v = .ok u) : LaunchWf u := by
  cases c with
  | cr0 =>
    obtain ⟨hn, hload⟩ := writeCr0_ok hu
    exact launchWf_pdptLoad (launchWf_withCr0 h hs hn (cr0Stored_and_reserved h.params v)) hload
  | cr2 =>
    obtain rfl : { s with cr2 := v } = u := Except.ok.inj hu
    exact { h with }
  | cr3 =>
    obtain ⟨n, hclear, hload⟩ := writeCr3_ok hu
    have ht : LaunchWf { s with cr3 := n } := { h with cr3Clear := hclear }
    exact launchWf_pdptLoad ht hload
  | cr4 =>
    obtain ⟨hv, hload⟩ := writeCr4_ok hu
    exact launchWf_pdptLoad (launchWf_withCr4 h hv) hload
  | cr8 =>
    obtain ⟨hclear, rfl⟩ := writeCr8_ok hu
    exact { h with cr8Clear := hclear }

theorem writeCr_long64_iff {c : CtlReg} (h : PagingWf s) (hu : s.writeCr c v = .ok u) : u.mode = .long64 ↔ s.mode = .long64 := by
  cases c with
  | cr0 =>
    obtain ⟨hn, hload⟩ := writeCr0_ok hu
    rw [mode_pdptLoad hload, withCr0_long64_iff h hn]
  | cr2 =>
    obtain rfl : { s with cr2 := v } = u := Except.ok.inj hu
    rfl
  | cr3 =>
    obtain ⟨n, _, hload⟩ := writeCr3_ok hu
    rw [mode_pdptLoad hload]
    rfl
  | cr4 =>
    rw [mode_pdptLoad (writeCr4_ok hu).2]
    rfl
  | cr8 =>
    obtain ⟨_, rfl⟩ := writeCr8_ok hu
    rfl

end

/-! ## Completing an instruction, and the step -/

section
variable {i : Instr} {s t u : State}

theorem Wrote.launchWf (hu : Wrote i s u) (h : LaunchWf s) : LaunchWf u := by
  cases hu with
  | reg w n v => exact launchWf_writeReg _ w n v h
  | store a pas v => exact launchWf_storeAt pas v h
  | sreg f g sel u _ _ _ hg hu => exact launchWf_loadSeg hg h hu
  | crDrRead w n v => exact launchWf_drawFlags (launchWf_writeReg _ w n v h)
  | crWrite c v u _ hs hu => exact launchWf_drawFlags (launchWf_writeCr h hs hu)
  | drWrite d v _ _ hv => exact launchWf_drawFlags (launchWf_writeDr hv h)

/-- No instruction enters or leaves 64-bit mode. -/
theorem Wrote.long64_iff (hu : Wrote i s u) (h : PagingWf s) : u.mode = .long64 ↔ s.mode = .long64 := by
  cases hu with
  | reg => rw [mode_writeReg]
  | store => rw [mode_storeAt]
  | sreg f g sel u _ _ _ hg hu => rw [mode_loadSeg hg hu]
  | crDrRead => rw [mode_drawFlags, mode_writeReg]
  | crWrite c v u _ _ hu => rw [mode_drawFlags, writeCr_long64_iff h hu]
  | drWrite => rw [mode_drawFlags, mode_writeDr]

/-- Bits 63:32 are cut by every truncation but the one to 64 bits (00_scope.md R15). -/
theorem truncTo_high {w : Width} (hw : w ≠ .b64) (v : Quad) : (truncTo w v).extractLsb' 32 32 = 0 := by
  have hbytes : w.bytes ≤ 4 := by
    cases w with
    | b64 => exact absurd rfl hw
    | b8 | b16 | b32 => decide
  refine BitVec.eq_of_getLsbD_eq fun k _ => ?_
  have hk : ¬ 32 + k < 8 * w.bytes := by omega
  simp [truncTo_getLsbD, hk]

/-- Outside 64-bit mode the next `pc` is cut to at most 32 bits (10_state.md R27). -/
theorem nextPc_high (hm : s.mode ≠ .long64) (len : Nat) : (s.nextPc len).extractLsb' 32 32 = 0 := by
  cases hc : s.codeSize with
  | c64 => exact absurd (codeSize_eq_c64_iff.1 hc) hm
  | c32 | c16 =>
    rw [State.nextPc, hc]
    exact truncTo_high (by decide) _

/-- The width of the next `pc` is that of the mode before the instruction (entry 14), which is 64-bit mode or not as after it. -/
theorem launchWf_retire (h : LaunchWf u) (hmode : u.mode = .long64 ↔ s.mode = .long64) (hpc : s.nextPcOk i = true)
    (hcfg : u.cfg = s.cfg) (b ls : Bool) : LaunchWf (retire i s u b ls) :=
  { h with
    pcHigh := fun hm => nextPc_high (hm ∘ hmode.2) i.length
    pcCanonical := fun hm => by
      have hcanonical : s.canonical (s.nextPc i.length) = true := by
        simpa [State.nextPcOk, hmode.1 hm] using hpc
      rwa [State.canonical, ← hcfg] at hcanonical }

/-- A step that completes ran an instruction whose next `pc` it allowed. -/
theorem step_next (hl : LaunchConditions s) (h : step s = .next t) : ∃ i, s.nextPcOk i = true ∧ exec i s = .next t := by
  cases hb : s.breakpointsRefuse with
  | true => simp [step_of_breakpointsRefuse hl hb] at h
  | false =>
    cases hf : s.fetchInstr with
    | error e => exact absurd ((step_of_fetchInstr_error hl hb hf).symm.trans h) (stop_ne_next s t e)
    | ok i =>
      rw [step_of_fetchInstr_ok hl hb hf] at h
      split at h
      next hpc => exact ⟨i, hpc, h⟩
      next => cases h

/-- Settles O13: the writes of an instruction keep the invariant with `pc` still in place, and the `pc` that it retires with fits the mode,
since none of them enters or leaves 64-bit mode. -/
theorem stepKeepsLaunchWf : Obligations.StepKeepsLaunchWf := by
  intro s t h hstep
  obtain ⟨i, hpc, hexec⟩ := step_next h.toLaunchConditions hstep
  obtain ⟨_, u, hu, rfl⟩ := exec_next hexec
  obtain ⟨hfixed, _⟩ := hu.sameFixed
  exact launchWf_retire (hu.launchWf h) (hu.long64_iff h.pagingWf) hpc hfixed.cfg _ _

end

end Sys2Proof.Machine
end
